-- ==== Sys2Proof/Word.lean ====
section
/-! DEFINITION. The word types of the block (spec R9, R65): unsigned bit vectors, one width per register or space. -/

namespace Sys2Proof

/-- A codeword, a payload byte or a GF(256) element (R33, R140). -/
abbrev Byte := BitVec 8

/-- A module value, a reservation flag or a bit of the stream (R32, R36). -/
abbrev Bit := BitVec 1

/-- A command word (R90), and the widest value a host read returns. -/
abbrev Word := BitVec 32

/-- A polynomial over GF(256), highest-degree coefficient first (R148). -/
abbrev Poly := List Byte

end Sys2Proof
end

