-- ==== Sys2Proof/Syntax.lean ====
section
/-! DEFINITION. The commands of the opcode map (R94), one constructor per row. -/

namespace Sys2Proof

/-- A decoded command. Operands are the word's 8-bit fields `a` and `b`, unchanged (R93). -/
inductive Instr where
  /-- R114 -/
  | nop
  /-- R115 -/
  | clr
  /-- R116 -/
  | encode
  /-- R146 -/
  | gfmul (a b : Byte)
  /-- R147 -/
  | gfadd (a b : Byte)
  /-- R152; `a` is the degree -/
  | genp (a : Byte)
  /-- R153; `a` is the exponent -/
  | pmull (a : Byte)
  /-- R122 -/
  | vsel
  /-- R126 -/
  | bser
  /-- R129 -/
  | pack
  /-- R161 -/
  | rsgen
  /-- R164 -/
  | prem
  /-- R166 -/
  | cat
  /-- R181 -/
  | mclr
  /-- R184 -/
  | pfind
  /-- R186 -/
  | ptime
  /-- R188 -/
  | pdark
  /-- R191 -/
  | palign
  /-- R195 -/
  | rfmt
  /-- R197 -/
  | rver
  /-- R213 -/
  | zplace
  /-- R226 -/
  | mask
  /-- R230 -/
  | wfmt
  /-- R232 -/
  | wver
  deriving DecidableEq, Repr

/-- The pseudo-instructions of R98 that stand for fixed sequences of commands (`LOAD` is one of host writes and stands
with the host transactions). -/
inductive Pseudo where
  | bytemode
  | rsenc
  | patterns
  | finish
  deriving DecidableEq, Repr

/-- The expansion of a pseudo-instruction (R98). -/
def Pseudo.expand : Pseudo → List Instr
  | .bytemode => [.bser, .pack]
  | .rsenc    => [.rsgen, .prem, .cat]
  | .patterns => [.mclr, .pfind, .ptime, .pdark, .palign, .rfmt, .rver]
  | .finish   => [.zplace, .mask, .wfmt, .wver]

/-- The seventeen pipeline commands of one encode, in order (R111). -/
def Instr.pipeline : List Instr :=
  [.vsel, .bser, .pack, .rsgen, .prem, .cat, .mclr, .pfind, .ptime, .pdark, .palign, .rfmt, .rver, .zplace, .mask,
   .wfmt, .wver]

end Sys2Proof
end

