-- ==== Sys2Proof/Decode.lean ====
section
/-! DEFINITION. Decoding a command word (R90 to R95), total on every word, and the encoder from the same table. -/

namespace Sys2Proof

/-- The three formats of R91. -/
inductive Format where
  /-- No operand: bits 23:0 are reserved. -/
  | n
  /-- One operand: bits 15:0 are reserved. -/
  | a
  /-- Two operands: bits 7:0 are reserved. -/
  | ab
  deriving DecidableEq, Repr

/-- Bits 31:24 of a word (R91). -/
def opField (w : Word) : Byte := w.extractLsb' 24 8
/-- Bits 23:16 of a word (R91). -/
def aField (w : Word) : Byte := w.extractLsb' 16 8
/-- Bits 15:8 of a word (R91). -/
def bField (w : Word) : Byte := w.extractLsb' 8 8

/-- The reserved field of a format is all zero in the word (R91). -/
def Format.reservedZero (f : Format) (w : Word) : Bool :=
  match f with
  | .n  => w.extractLsb' 0 24 == 0#24
  | .a  => w.extractLsb' 0 16 == 0#16
  | .ab => w.extractLsb' 0 8 == 0#8

/-- One row of the opcode map: opcode, format, and the command made of the operand fields. -/
structure OpcodeRow where
  op     : Byte
  format : Format
  build  : Byte → Byte → Instr

/-- Rows `0x0_` and `0x1_` of R94: control and arithmetic. -/
def controlRows : List OpcodeRow :=
  [ ⟨0x00#8, .n,  fun _ _ => .nop⟩,
    ⟨0x01#8, .n,  fun _ _ => .clr⟩,
    ⟨0x02#8, .n,  fun _ _ => .encode⟩,
    ⟨0x10#8, .ab, fun a b => .gfmul a b⟩,
    ⟨0x11#8, .ab, fun a b => .gfadd a b⟩,
    ⟨0x12#8, .a,  fun a _ => .genp a⟩,
    ⟨0x13#8, .a,  fun a _ => .pmull a⟩ ]

/-- Rows `0x2_` of R94: the codeword pipeline. -/
def codewordRows : List OpcodeRow :=
  [ ⟨0x20#8, .n, fun _ _ => .vsel⟩,
    ⟨0x21#8, .n, fun _ _ => .bser⟩,
    ⟨0x22#8, .n, fun _ _ => .pack⟩,
    ⟨0x23#8, .n, fun _ _ => .rsgen⟩,
    ⟨0x24#8, .n, fun _ _ => .prem⟩,
    ⟨0x25#8, .n, fun _ _ => .cat⟩ ]

/-- Rows `0x3_` of R94: the matrix pipeline. -/
def matrixRows : List OpcodeRow :=
  [ ⟨0x30#8, .n, fun _ _ => .mclr⟩,
    ⟨0x31#8, .n, fun _ _ => .pfind⟩,
    ⟨0x32#8, .n, fun _ _ => .ptime⟩,
    ⟨0x33#8, .n, fun _ _ => .pdark⟩,
    ⟨0x34#8, .n, fun _ _ => .palign⟩,
    ⟨0x35#8, .n, fun _ _ => .rfmt⟩,
    ⟨0x36#8, .n, fun _ _ => .rver⟩,
    ⟨0x37#8, .n, fun _ _ => .zplace⟩,
    ⟨0x38#8, .n, fun _ _ => .mask⟩,
    ⟨0x39#8, .n, fun _ _ => .wfmt⟩,
    ⟨0x3A#8, .n, fun _ _ => .wver⟩ ]

/-- The opcode map of R94. -/
def opcodeTable : List OpcodeRow := controlRows ++ codewordRows ++ matrixRows

/-- The row whose opcode is this one, if there is one (R92). -/
def opcodeRow (op : Byte) : Option OpcodeRow := opcodeTable.find? (fun row => row.op == op)

/-- Why a word is no command (R95). Both are `Fault(ILL)`, taken by the issue of the word. -/
inductive Reject where
  /-- The opcode is one of the 232 that R94 does not list. -/
  | unlistedOpcode (op : Byte)
  /-- The opcode is listed and the reserved field of its format is not zero. -/
  | reservedNotZero (op : Byte)
  deriving DecidableEq, Repr

/-- R92, R95: every word is a command or is rejected by name. -/
def decode (w : Word) : Except Reject Instr :=
  match opcodeRow (opField w) with
  | none => .error (.unlistedOpcode (opField w))
  | some row =>
    if row.format.reservedZero w then .ok (row.build (aField w) (bField w))
    else .error (.reservedNotZero (opField w))

/-- A word of format N (R91): the opcode in bits 31:24, the rest zero. -/
def wordN (op : Byte) : Word := op.setWidth 32 <<< 24
/-- A word of format A (R91): the operand in bits 23:16. -/
def wordA (op a : Byte) : Word := wordN op ||| a.setWidth 32 <<< 16
/-- A word of format AB (R91): the second operand in bits 15:8. -/
def wordAB (op a b : Byte) : Word := wordA op a ||| b.setWidth 32 <<< 8

/-- The word of a command (R94). -/
def encode : Instr → Word
  | .nop       => wordN 0x00#8
  | .clr       => wordN 0x01#8
  | .encode    => wordN 0x02#8
  | .gfmul a b => wordAB 0x10#8 a b
  | .gfadd a b => wordAB 0x11#8 a b
  | .genp a    => wordA 0x12#8 a
  | .pmull a   => wordA 0x13#8 a
  | .vsel      => wordN 0x20#8
  | .bser      => wordN 0x21#8
  | .pack      => wordN 0x22#8
  | .rsgen     => wordN 0x23#8
  | .prem      => wordN 0x24#8
  | .cat       => wordN 0x25#8
  | .mclr      => wordN 0x30#8
  | .pfind     => wordN 0x31#8
  | .ptime     => wordN 0x32#8
  | .pdark     => wordN 0x33#8
  | .palign    => wordN 0x34#8
  | .rfmt      => wordN 0x35#8
  | .rver      => wordN 0x36#8
  | .zplace    => wordN 0x37#8
  | .mask      => wordN 0x38#8
  | .wfmt      => wordN 0x39#8
  | .wver      => wordN 0x3A#8

/-- What the decoder reads from the opcode table's word `w`: every row is one 32-bit word (R90), and bits from `nbits`
up are 0. -/
def decodeTableWord (nbits w : Nat) : Option Instr :=
  if w % 2 ^ nbits < 2 ^ 32 then (decode (BitVec.ofNat 32 (w % 2 ^ nbits))).toOption else none

end Sys2Proof
end

