-- ==== Sys2Proof/Config.lean ====
section
/-! DEFINITION. What this implementation fixes (R8), and the free values. -/

namespace Sys2Proof.Config

/-- Depth of `IN` (R30). -/
abbrev inDepth : Nat := 512
/-- Depth of `BS` (R30). -/
abbrev bsDepth : Nat := 4096
/-- Depth of `CW` (R30). -/
abbrev cwDepth : Nat := 512
/-- Depth of `GEN` (R30). -/
abbrev genDepth : Nat := 31
/-- Depth of `REM` (R30). -/
abbrev remDepth : Nat := 30
/-- Depth of `VAL` and of `RSV` (R30). -/
abbrev gridDepth : Nat := 4096

/-- Which digit of a literal is its bit `i` (R229). -/
inductive InfoBitOrder where
  /-- Bit `i` is the coefficient of 2^i. -/
  | lsbFirst
  /-- Bit `i` is the `i`-th digit of the string, from the left. -/
  | stringOrder
  deriving DecidableEq, Repr

/-- The two parameters that R8 asks a model to keep as arguments. -/
structure Params where
  /-- The largest accepted payload length, 231 to 271 (R121). -/
  v10MaxBytes : Nat
  /-- R229. -/
  infoBitOrder : InfoBitOrder
  deriving DecidableEq, Repr

/-- The values this hardware takes: `V10_MAX_BYTES` = 253 and `INFO_BIT_ORDER` = `lsb_first` (R8, R121, R229; log 6). -/
def params : Params :=
  { v10MaxBytes := 253
    infoBitOrder := .lsbFirst }

/-- A draw (R64), a FREE VALUE: nothing constrains it.
The arguments are the transaction's draw counter, the space and the index (log 4). -/
opaque draw : Nat → Nat → Nat → Word

end Sys2Proof.Config
end

