-- ==== Sys2Proof/Machine/State.lean ====
section
/-! DEFINITION. The state of the block as plain data (R20 to R44), its faults (R241) and its reset (R44, R270). -/

namespace Sys2Proof.Machine

/-- The content of one address space of `w`-bit elements (R30), for 8-bit elements a list of `Host.Cell`.
An index that is not listed holds no value (`none`, R23), which is also the reset content (R44).
The canonical form is `Memory.wf`: indexes strictly rising. -/
abbrev Memory (w : Nat) := List (Nat × BitVec w)

/-- What the host can do to the block: the transactions of R60 (a write to space 0, index 0 issues a command), and the
one reset event (R270, R256). Ids, indexes and values are unbounded numbers, since R63 says what an illegal one does. -/
inductive HostOp where
  /-- R270, between transactions (R272). -/
  | reset
  /-- `MemRead(space, idx)` (R61). -/
  | read (space idx : Nat)
  /-- `MemWrite(space, idx, v)` (R62). -/
  | write (space idx value : Nat)
  deriving DecidableEq, Repr

/-- The six nonzero fault codes of R241. A fault of this block is a NEXT state, made by the fault entry of R245: no
meaning and no step ever answers `Outcome.fault`, so all six are safe (log 12). -/
inductive Fault where
  /-- `LEN` > `V10_MAX_BYTES`: raised by `VSEL`, also inside `ENCODE` (R242). -/
  | ovf
  /-- Reserved: raised by nothing (R243). -/
  | tbl
  /-- A command in a stage that does not accept it: raised by any command (R112). -/
  | seq
  /-- A word that is no command, or an operand out of range: raised by the issue of a word, `GENP`, `PMULL` (R95, R96). -/
  | ill
  /-- An illegal host access: raised by a host transaction (R63). -/
  | acc
  /-- A needed value was never written: raised by `BSER`, also inside `ENCODE`, and `PMULL` (R126, R153). -/
  | uninit
  deriving DecidableEq, Repr

/-- Why an instruction has no meaning. -/
inductive Refusal where
  /-- Raised by an arm of `exec` that has no meaning yet, and safe. Every command has its meaning: no arm raises it. -/
  | notModelled (mnemonic : String)
  deriving DecidableEq, Repr

/-- The architectural state (R20, R21, R30), and the model's own three fields at the end. `none` is the spec's own
"holds no value" (R23). -/
structure State where
  /-- `STAGE` (R29) -/
  stage : BitVec 5
  /-- `ERRC` (R22, R241) -/
  errc  : BitVec 3
  /-- `LEN` (R25) -/
  len   : Option (BitVec 16)
  /-- `VER` (R26) -/
  ver   : Option (BitVec 4)
  /-- `SIZE` (R26) -/
  size  : Option (BitVec 6)
  /-- `TOT` (R26) -/
  tot   : Option (BitVec 9)
  /-- `EC` (R26) -/
  ec    : Option (BitVec 5)
  /-- `DAT` (R26) -/
  dat   : Option (BitVec 9)
  /-- `BLEN` (R27) -/
  blen  : Option (BitVec 12)
  /-- `NDC` (R27) -/
  ndc   : Option (BitVec 9)
  /-- `NAC` (R27) -/
  nac   : Option (BitVec 9)
  /-- `GDEG` (R28) -/
  gdeg  : Option (BitVec 5)
  /-- `P` (R28) -/
  p     : Option Byte
  /-- `NPL` (R27) -/
  npl   : Option (BitVec 12)
  /-- `IN` (R31) -/
  inp   : Memory 8
  /-- `BS` (R32) -/
  bs    : Memory 1
  /-- `CW` (R33) -/
  cw    : Memory 8
  /-- `GEN` (R34) -/
  gen   : Memory 8
  /-- `REM` (R35) -/
  rem   : Memory 8
  /-- `VAL` (R36) -/
  val   : Memory 1
  /-- `RSV` (R36) -/
  rsv   : Memory 1
  /-- The host transactions still to be performed, next first (the model's own; log 1). -/
  host  : List HostOp
  /-- What the latest transaction returned to the host (the model's own; log 3). -/
  resp  : Option Word
  /-- How many transactions have been performed, so that draws are fresh (the model's own; log 4). -/
  draws : Nat
  deriving DecidableEq, Repr

/-- The values of R44, with no transaction pending, none answered and none drawn (log 1, 3, 4). -/
def State.reset : State where
  stage := 0
  errc  := 0
  len   := some 0
  ver   := none
  size  := none
  tot   := none
  ec    := none
  dat   := none
  blen  := none
  ndc   := none
  nac   := none
  gdeg  := none
  p     := none
  npl   := none
  inp   := []
  bs    := []
  cw    := []
  gen   := []
  rem   := []
  val   := []
  rsv   := []
  host  := []
  resp  := none
  draws := 0

end Sys2Proof.Machine
end

