-- ==== Sys2Proof/Machine/Ops.lean ====
section
/-! DEFINITION. The shared operations: memory, the named updates of the state, the fault entry (R245), the return to
reset values (R115, R270), and the acceptance of a command (R92, R112, R113). -/

namespace Sys2Proof.Machine

/-! ## Address spaces -/

/-- The content of element `k`; `none` is "holds no value" (R23). -/
def Memory.read {w : Nat} : Memory w → Nat → Option (BitVec w)
  | [], _ => none
  | (a, x) :: m, k => if k = a then some x else Memory.read m k

/-- Puts `v` at element `k`, keeping the indexes rising. -/
def Memory.put {w : Nat} : Memory w → Nat → BitVec w → Memory w
  | [], k, v => [(k, v)]
  | (a, x) :: m, k, v =>
    if k < a then (k, v) :: (a, x) :: m
    else if k = a then (k, v) :: m
    else (a, x) :: Memory.put m k v

/-- `S[k] <- v` (R11). An index at or beyond the depth names no element, and no rule forms one (R281; log 8). -/
def Memory.write {w : Nat} (depth : Nat) (m : Memory w) (k : Nat) (v : BitVec w) : Memory w :=
  if k < depth then m.put k v else m

/-- The elements `base`, `base`+1, ... with the values of a list. -/
def Memory.number {w : Nat} : Nat → List (BitVec w) → Memory w
  | _, [] => []
  | base, v :: vs => (base, v) :: Memory.number (base + 1) vs

/-- `for j in n..: S[j] <- none` (R11, R23). -/
def Memory.discardFrom {w : Nat} (m : Memory w) (n : Nat) : Memory w := m.filter (fun c => decide (c.1 < n))

/-- The elements from `n` on. -/
def Memory.keepFrom {w : Nat} (m : Memory w) (n : Nat) : Memory w := m.filter (fun c => decide (n ≤ c.1))

/-- `for j in 0..|vs|-1: S[base+j] <- vs[j]`, within the depth. -/
def Memory.writeRange {w : Nat} (depth : Nat) (m : Memory w) (base : Nat) (vs : List (BitVec w)) : Memory w :=
  m.discardFrom base ++ (Memory.number base (vs.take (depth - base)) ++ m.keepFrom (base + vs.length))

/-- The canonical form: the indexes are strictly rising. -/
def Memory.wf {w : Nat} : Memory w → Bool
  | [] => true
  | [_] => true
  | (a, _) :: (b, y) :: m => decide (a < b) && Memory.wf ((b, y) :: m)

/-- Every listed index is below the depth. -/
def Memory.within {w : Nat} (depth : Nat) (m : Memory w) : Bool := m.all (fun c => decide (c.1 < depth))

/-- The indexes that hold a value (R23's live range), in rising order. -/
def Memory.live {w : Nat} (m : Memory w) : List Nat := m.map Prod.fst

/-! ## Named updates of the state -/

/-- `STAGE <- k`. -/
def State.setStage (s : State) (k : BitVec 5) : State := { s with stage := k }

/-- `LEN <- v`. -/
def State.setLen (s : State) (v : BitVec 16) : State := { s with len := some v }

/-- `P <- v`. -/
def State.setP (s : State) (v : Byte) : State := { s with p := some v }

/-- `NPL <- v`. -/
def State.setNpl (s : State) (v : BitVec 12) : State := { s with npl := some v }

/-- The five registers of R26, written together. -/
def State.setVersion (s : State) (ver : BitVec 4) (size : BitVec 6) (tot : BitVec 9) (ec : BitVec 5) (dat : BitVec 9) :
    State :=
  { s with ver := some ver, size := some size, tot := some tot, ec := some ec, dat := some dat }

/-- `IN` replaced. -/
def State.setInp (s : State) (m : Memory 8) : State := { s with inp := m }

/-- `BS` replaced and `BLEN` written. -/
def State.setStream (s : State) (m : Memory 1) (n : BitVec 12) : State := { s with bs := m, blen := some n }

/-- `CW` replaced and `NDC` written. -/
def State.setData (s : State) (m : Memory 8) (n : BitVec 9) : State := { s with cw := m, ndc := some n }

/-- `CW` replaced and `NAC` written. -/
def State.setAll (s : State) (m : Memory 8) (n : BitVec 9) : State := { s with cw := m, nac := some n }

/-- `GEN` replaced and `GDEG` written. -/
def State.setGen (s : State) (m : Memory 8) (n : BitVec 5) : State := { s with gen := m, gdeg := some n }

/-- `REM` replaced. -/
def State.setRem (s : State) (m : Memory 8) : State := { s with rem := m }

/-- `VAL` replaced. -/
def State.setVal (s : State) (m : Memory 1) : State := { s with val := m }

/-- `RSV` replaced. -/
def State.setRsv (s : State) (m : Memory 1) : State := { s with rsv := m }

/-- What the transaction returns to the host (R61). -/
def State.respond (s : State) (r : Option Word) : State := { s with resp := r }

/-- The next transaction is taken: the rest stays pending, and its draws are fresh (R64; log 1, 4). -/
def State.takeOp (s : State) (rest : List HostOp) : State := { s with host := rest, draws := s.draws + 1 }

/-! ## Reset values and the fault entry -/

/-- Every register and RAM element takes its value of R44; what is pending, answered and drawn stays (log 11). -/
def State.cleared (s : State) : State := { State.reset with host := s.host, resp := s.resp, draws := s.draws }

/-- The stage `ERR` (R29). -/
abbrev stageErr : BitVec 5 := 31#5

/-- The stage `DONE` (R29). -/
abbrev stageDone : BitVec 5 := 17#5

/-- The value of `ERRC` for a fault (R241). -/
def Fault.code : Fault → BitVec 3
  | .ovf    => 1#3
  | .tbl    => 2#3
  | .seq    => 3#3
  | .ill    => 4#3
  | .acc    => 5#3
  | .uninit => 6#3

/-- What a first fault leaves (R245): the code and stage `ERR`, and nothing in any data register or RAM, `LEN` included. -/
def State.faulted (s : State) (f : Fault) : State :=
  { s with
    errc := f.code, stage := stageErr,
    ver := none, size := none, tot := none, ec := none, dat := none, blen := none, ndc := none, nac := none,
    gdeg := none, p := none, npl := none,
    inp := [], bs := [], cw := [], gen := [], rem := [], val := [], rsv := [],
    len := none }

/-- `raise Fault(code)` (R245): the first fault is kept. -/
def State.raise (s : State) (f : Fault) : State := if s.stage = stageErr then s else s.faulted f

/-! ## Acceptance of a command -/

/-- The stages 0..17 (R112). -/
def running (k : BitVec 5) : Bool := decide (k.toNat ≤ 17)

/-- The checks of R92 that a command of the table meets, in order: stage `ERR` (R247), the accepted stages (R112), then
the command's own checks, whose fault discards every write of the body (R110, R249). -/
def State.command (accepts : BitVec 5 → Bool) (body : State → Except Fault State) (s : State) : State :=
  if s.stage = stageErr then s
  else if accepts s.stage then
    match body s with
    | .ok t => t
    | .error f => s.raise f
  else s.raise .seq

/-- A pipeline command (R113): accepted in stage `k` only, and its last action is `STAGE <- STAGE + 1`. -/
def State.pipeline (k : BitVec 5) (body : State → Except Fault State) (s : State) : State :=
  s.command (fun x => x == k) (fun t => (body t).map (fun u => u.setStage (k + 1#5)))

end Sys2Proof.Machine
end

