-- ==== Sys2Proof/Machine/Flags.lean ====
section
/-! DEFINITION. `STATUS` (R22): the block's only flags are views of `STAGE` and `ERRC`. -/

namespace Sys2Proof.Machine

/-- `DONE`: 1 exactly in stage 17 (R22). -/
def State.done (s : State) : Bool := s.stage == stageDone

/-- `ERR`: 1 exactly in stage 31 (R22). -/
def State.err (s : State) : Bool := s.stage == stageErr

/-- `STATUS` (R22): `STAGE` in bits 4:0, `ERRC` in 10:8, `DONE` in 11, `ERR` in 12, every other bit zero. -/
def State.status (s : State) : Word :=
  s.stage.setWidth 32 ||| s.errc.setWidth 32 <<< 8 ||| (BitVec.ofBool s.done).setWidth 32 <<< 11 |||
  (BitVec.ofBool s.err).setWidth 32 <<< 12

end Sys2Proof.Machine
end

