-- ==== Sys2Proof/Machine/Operands.lean ====
section
/-! DEFINITION. What a command reads: registers and elements (R11), and the bits of a value (R67). A read of an element
that holds no value is a draw; no command makes one in a state that a run reaches (R23; log 7). -/

namespace Sys2Proof.Machine

open Sys2Proof.Config

/-- The thirteen spaces (R30). -/
inductive SpaceId where
  | reg | inp | bs | cw | gen | rem | val | rsv | exp | log | vtab | atab | info
  deriving DecidableEq, Repr

/-- The space ids of R30. -/
def SpaceId.id : SpaceId → Nat
  | .reg  => 0
  | .inp  => 1
  | .bs   => 2
  | .cw   => 3
  | .gen  => 4
  | .rem  => 5
  | .val  => 6
  | .rsv  => 7
  | .exp  => 8
  | .log  => 9
  | .vtab => 10
  | .atab => 11
  | .info => 12

/-- The fourteen registers (R21). -/
inductive Reg where
  | cmd | status | len | ver | size | tot | ec | dat | blen | ndc | nac | gdeg | p | npl
  deriving DecidableEq, Repr

/-- The register numbers of R21. -/
def Reg.number : Reg → Nat
  | .cmd    => 0
  | .status => 1
  | .len    => 2
  | .ver    => 3
  | .size   => 4
  | .tot    => 5
  | .ec     => 6
  | .dat    => 7
  | .blen   => 8
  | .ndc    => 9
  | .nac    => 10
  | .gdeg   => 11
  | .p      => 12
  | .npl    => 13

/-- A draw of `w` bits for one element, in the transaction under way (R64; log 4). -/
def State.drawBits (s : State) (space : SpaceId) (idx w : Nat) : BitVec w :=
  (Config.draw s.draws space.id idx).setWidth w

/-- The value of a register that a command reads. -/
def State.operand {w : Nat} (s : State) (r : Reg) (v : Option (BitVec w)) : BitVec w :=
  v.getD (s.drawBits .reg r.number w)

/-- The value of an element that a command reads. -/
def State.element {w : Nat} (s : State) (space : SpaceId) (idx : Nat) (v : Option (BitVec w)) : BitVec w :=
  v.getD (s.drawBits space idx w)

/-! ## Registers -/

/-- `LEN` -/
def State.lenV (s : State) : BitVec 16 := s.operand .len s.len
/-- `VER` as a number -/
def State.verN (s : State) : Nat := (s.operand .ver s.ver).toNat
/-- `SIZE` as a number -/
def State.sizeN (s : State) : Nat := (s.operand .size s.size).toNat
/-- `EC` as a number -/
def State.ecN (s : State) : Nat := (s.operand .ec s.ec).toNat
/-- `DAT` as a number -/
def State.datN (s : State) : Nat := (s.operand .dat s.dat).toNat
/-- `BLEN` as a number -/
def State.blenN (s : State) : Nat := (s.operand .blen s.blen).toNat
/-- `NDC` as a number -/
def State.ndcN (s : State) : Nat := (s.operand .ndc s.ndc).toNat
/-- `NAC` as a number -/
def State.nacN (s : State) : Nat := (s.operand .nac s.nac).toNat

/-! ## Elements -/

/-- `BS[k]` -/
def State.bsAt (s : State) (k : Nat) : Bit := s.element .bs k (s.bs.read k)
/-- `CW[k]` -/
def State.cwAt (s : State) (k : Nat) : Byte := s.element .cw k (s.cw.read k)
/-- `GEN[k]` -/
def State.genAt (s : State) (k : Nat) : Byte := s.element .gen k (s.gen.read k)
/-- `REM[k]` -/
def State.remAt (s : State) (k : Nat) : Byte := s.element .rem k (s.rem.read k)
/-- `ATAB[k]` -/
def State.atabAt (s : State) (k : Nat) : Nat := (s.element .atab k (romAtab k)).toNat
/-- `INFO[k]` -/
def State.infoAt (s : State) (k : Nat) : BitVec 18 := s.element .info k (romInfo k)
/-- `VAL[r,c]` in a grid of `n` rows (R66) -/
def State.valAt (s : State) (n r c : Nat) : Bit := s.element .val (r * n + c) (s.val.read (r * n + c))
/-- `RSV[r,c]` in a grid of `n` rows (R66) -/
def State.rsvAt (s : State) (n r c : Nat) : Bit := s.element .rsv (r * n + c) (s.rsv.read (r * n + c))

/-- `BS[0..n-1]` -/
def State.bsList (s : State) (n : Nat) : List Bit := (List.range n).map s.bsAt
/-- `CW[0..n-1]` -/
def State.cwList (s : State) (n : Nat) : List Byte := (List.range n).map s.cwAt
/-- `GEN[0..n-1]` -/
def State.genList (s : State) (n : Nat) : List Byte := (List.range n).map s.genAt
/-- `REM[0..n-1]` -/
def State.remList (s : State) (n : Nat) : List Byte := (List.range n).map s.remAt

/-- The payload `IN[0..n-1]`, or nothing when some byte of it holds no value (R126). -/
def State.payload (s : State) (n : Nat) : Option (List Byte) := (List.range n).mapM s.inp.read

/-! ## Bits of a value -/

/-- The low `n` bits of a value, most significant first (R67). -/
def bitsMsbFirst {w : Nat} (n : Nat) (x : BitVec w) : List Bit :=
  (List.range n).map (fun i => x.extractLsb' (n - 1 - i) 1)

/-- The number whose bits, most significant first, are these (R67 (d), R129). -/
def numberOfBits (bits : List Bit) : Nat := bits.foldl (fun acc b => 2 * acc + b.toNat) 0

end Sys2Proof.Machine
end

