-- ==== Sys2Proof/Machine/Access.lean ====
section
/-! DEFINITION. The host's access to the spaces (R60 to R66): which are illegal, what a read returns, and the writes to
`LEN` and `IN`. -/

namespace Sys2Proof.Machine

open Sys2Proof.Config

/-- The space with this id; ids 13 and above name none (R30). -/
def SpaceId.ofId (n : Nat) : Option SpaceId :=
  [SpaceId.reg, .inp, .bs, .cw, .gen, .rem, .val, .rsv, .exp, .log, .vtab, .atab, .info][n]?

/-- The register with this number; 14 and above name none (R21). -/
def Reg.ofNumber (n : Nat) : Option Reg :=
  [Reg.cmd, .status, .len, .ver, .size, .tot, .ec, .dat, .blen, .ndc, .nac, .gdeg, .p, .npl][n]?

/-- The depth of each space (R30). -/
def SpaceId.depth : SpaceId → Nat
  | .reg  => 14
  | .inp  => inDepth
  | .bs   => bsDepth
  | .cw   => cwDepth
  | .gen  => genDepth
  | .rem  => remDepth
  | .val  => gridDepth
  | .rsv  => gridDepth
  | .exp  => 511
  | .log  => 256
  | .vtab => 40
  | .atab => 40
  | .info => 11

/-- The width of each register (R21). -/
def Reg.width : Reg → Nat
  | .cmd | .status => 32
  | .len => 16
  | .ver => 4
  | .size => 6
  | .tot | .dat | .ndc | .nac => 9
  | .ec | .gdeg => 5
  | .blen | .npl => 12
  | .p => 8

/-- The width of an element (R30, R65); 32 where no element is named. -/
def elementWidth (x : SpaceId) (idx : Nat) : Nat :=
  match x with
  | .reg => ((Reg.ofNumber idx).map Reg.width).getD 32
  | .inp | .cw | .gen | .rem | .exp | .log => 8
  | .bs | .val | .rsv => 1
  | .vtab => 9
  | .atab => 6
  | .info => 18

/-- The element exists: below the depth, and in `INFO` not one of 1..6 (R63 (b), R42). -/
def SpaceId.hasElement (x : SpaceId) (idx : Nat) : Bool :=
  decide (idx < x.depth) && !(x == .info && decide (1 ≤ idx) && decide (idx ≤ 6))

/-- R63 (a), (b), (c). -/
def illegalRead (space idx : Nat) : Bool :=
  match SpaceId.ofId space with
  | none => true
  | some x => !x.hasElement idx || (x == .reg && idx == 0)

/-- R63 (a), (b), (d), (e), (f). -/
def State.illegalWrite (s : State) (space idx v : Nat) : Bool :=
  match SpaceId.ofId space with
  | none => true
  | some .reg =>
    match Reg.ofNumber idx with
    | some .cmd => decide (2 ^ 32 ≤ v)
    | some .len => s.stage != 0#5 || decide (2 ^ 16 ≤ v)
    | _ => true
  | some .inp => !SpaceId.hasElement .inp idx || s.stage != 0#5 || decide (2 ^ 8 ≤ v)
  | some _ => true

/-- The content of a register (R21); `CMD` holds nothing (R24). -/
def State.peekReg (s : State) : Reg → Option Word
  | .cmd    => none
  | .status => some s.status
  | .len    => s.len.map (·.setWidth 32)
  | .ver    => s.ver.map (·.setWidth 32)
  | .size   => s.size.map (·.setWidth 32)
  | .tot    => s.tot.map (·.setWidth 32)
  | .ec     => s.ec.map (·.setWidth 32)
  | .dat    => s.dat.map (·.setWidth 32)
  | .blen   => s.blen.map (·.setWidth 32)
  | .ndc    => s.ndc.map (·.setWidth 32)
  | .nac    => s.nac.map (·.setWidth 32)
  | .gdeg   => s.gdeg.map (·.setWidth 32)
  | .p      => s.p.map (·.setWidth 32)
  | .npl    => s.npl.map (·.setWidth 32)

/-- The content of an element, zero-extended (R11), `none` when it holds no value (R23). -/
def State.peek (p : Params) (s : State) (x : SpaceId) (idx : Nat) : Option Word :=
  match x with
  | .reg  => (Reg.ofNumber idx).bind s.peekReg
  | .inp  => (s.inp.read idx).map (·.setWidth 32)
  | .bs   => (s.bs.read idx).map (·.setWidth 32)
  | .cw   => (s.cw.read idx).map (·.setWidth 32)
  | .gen  => (s.gen.read idx).map (·.setWidth 32)
  | .rem  => (s.rem.read idx).map (·.setWidth 32)
  | .val  => (s.val.read idx).map (·.setWidth 32)
  | .rsv  => (s.rsv.read idx).map (·.setWidth 32)
  | .exp  => (romExp idx).map (·.setWidth 32)
  | .log  => (romLog idx).map (·.setWidth 32)
  | .vtab => (romVtab p idx).map (·.setWidth 32)
  | .atab => (romAtab idx).map (·.setWidth 32)
  | .info => (romInfo idx).map (·.setWidth 32)

/-- What a legal read returns (R61, R64): the content, or a draw of the element's width. -/
def State.readValue (p : Params) (s : State) (x : SpaceId) (idx : Nat) : Word :=
  (s.peek p x idx).getD ((s.drawBits x idx (elementWidth x idx)).setWidth 32)

/-- `MemRead(space, idx)` (R61, R63): a legal read changes nothing; an illegal one faults and returns a draw (log 5). -/
def State.memRead (p : Params) (s : State) (space idx : Nat) : State :=
  if illegalRead space idx then (s.raise .acc).respond (some (Config.draw s.draws space idx))
  else s.respond ((SpaceId.ofId space).map (fun x => s.readValue p x idx))

/-- A legal write to `LEN` or to an element of `IN` (R62). -/
def State.store (s : State) (x : SpaceId) (idx v : Nat) : State :=
  match x with
  | .reg => s.setLen (BitVec.ofNat 16 v)
  | .inp => s.setInp (s.inp.write inDepth idx (BitVec.ofNat 8 v))
  | .bs | .cw | .gen | .rem | .val | .rsv | .exp | .log | .vtab | .atab | .info => s

/-- `LOAD` (R98): the host writes that declare and store a payload. -/
def loadOps (payload : List Byte) : List HostOp :=
  .write 0 2 payload.length :: payload.zipIdx.map (fun x => .write 1 x.2 x.1.toNat)

end Sys2Proof.Machine
end

