-- ==== Sys2Proof/Machine/Field.lean ====
section
/-! DEFINITION. Arithmetic over GF(256) and its polynomials (R140 to R150), and the division (R162, R163): the pure
functions of R12. -/

namespace Sys2Proof.Machine

/-- R144, the zero test first: `LOG[0]` is never read. -/
def gfmul (a b : Byte) : Byte :=
  if a = 0#8 ∨ b = 0#8 then 0#8
  else expValue (logValue a.toNat + logValue b.toNat)

/-- R140: addition and subtraction are exclusive-or. -/
def gfadd (a b : Byte) : Byte := a ^^^ b

/-- Adds `p` into the leading coefficients of `q`, index by index. -/
def addLeading : Poly → Poly → Poly
  | [], q => q
  | _ :: _, [] => []
  | a :: p, b :: q => gfadd a b :: addLeading p q

/-- R149, by rows: coefficient `i` of `p` adds its multiple of `q` at offset `i`. -/
def pmul : Poly → Poly → Poly
  | [], q => List.replicate (q.length - 1) 0#8
  | c :: p, q => addLeading (q.map (gfmul c)) (0#8 :: pmul p q)

/-- The linear factor `(x - alpha^i)` (R148). -/
def linearFactor (i : Nat) : Poly := [1#8, expValue i]

/-- R150: the product of the factors 0 to `n`-1, factor 0 first. -/
def genpoly : Nat → Poly
  | 0 => [1#8]
  | n + 1 => pmul (genpoly n) (linearFactor n)

/-- R162, one pass of the division loop; `gen[0]` is never read. -/
def rsStep (rem gen : Poly) (cw : Byte) : Poly :=
  let factor := gfadd cw (rem.headD 0#8)
  let shifted := rem.tail ++ [0#8]
  if factor ≠ 0#8 then List.zipWith (fun r g => gfadd r (gfmul g factor)) shifted gen.tail
  else shifted

/-- R163, `data[0]` first, from an all-zero remainder. -/
def prem (data gen : Poly) : Poly :=
  data.foldl (fun rem cw => rsStep rem gen cw) (List.replicate (gen.length - 1) 0#8)

end Sys2Proof.Machine
end

