-- ==== Sys2Proof/Machine/Arithmetic.lean ====
section
/-! DEFINITION. The arithmetic commands `GFMUL`, `GFADD`, `GENP`, `PMULL` (R146, R147, R152, R153). -/

namespace Sys2Proof.Machine

open Sys2Proof.Config

/-- `GEN[0..n]` takes the `n`+1 coefficients of a polynomial, `GEN` holds nothing from `n`+1 on, and `GDEG` takes `n`
(R152, R161). -/
def State.loadGen (s : State) (n : Nat) (g : Poly) : State :=
  s.setGen ((s.gen.writeRange genDepth 0 g).discardFrom (n + 1)) (BitVec.ofNat 5 n)

/-- R146: `P <- gfmul(a, b)`, in stages 0..17. -/
def execGfmul (a b : Byte) (s : State) : Host.Outcome State Fault Refusal :=
  .next (s.command running fun s => .ok (s.setP (gfmul a b)))

/-- R147: `P <- a ^ b`, in stages 0..17. -/
def execGfadd (a b : Byte) (s : State) : Host.Outcome State Fault Refusal :=
  .next (s.command running fun s => .ok (s.setP (gfadd a b)))

/-- R152, with the operand range of R96 tested after the stage. -/
def genpBody (a : Byte) (s : State) : Except Fault State :=
  if a.toNat ≤ 30 then .ok (s.loadGen a.toNat (genpoly a.toNat))
  else .error .ill

/-- `GENP` (R152), in stage 0. -/
def execGenp (a : Byte) (s : State) : Host.Outcome State Fault Refusal :=
  .next (s.command (fun k => k == 0#5) (genpBody a))

/-- R153: the tests, `UNINIT` first, then the product with one linear factor, one element longer. -/
def pmullBody (a : Byte) (s : State) : Except Fault State :=
  match s.gdeg with
  | none => .error .uninit
  | some d =>
    if 29 < d.toNat then .error .ill
    else
      .ok (s.setGen (s.gen.writeRange genDepth 0 (pmul (s.genList (d.toNat + 1)) (linearFactor a.toNat))) (d + 1#5))

/-- `PMULL` (R153), in stage 0. -/
def execPmull (a : Byte) (s : State) : Host.Outcome State Fault Refusal :=
  .next (s.command (fun k => k == 0#5) (pmullBody a))

end Sys2Proof.Machine
end

