-- ==== Sys2Proof/Machine/Codeword.lean ====
section
/-! DEFINITION. The codeword pipeline `VSEL`, `BSER`, `PACK`, `RSGEN`, `PREM`, `CAT` (R120 to R132, R160 to R166). -/

namespace Sys2Proof.Machine

open Sys2Proof.Config

/-! ## Version selection -/

/-- R120: the smallest version whose `maxBytes` is at least `l`; `none` is the overflow. -/
def vsel (p : Params) (l : Nat) : Option Nat := (List.range' 1 10).find? (fun v => decide (l ≤ vtab p v 0))

/-- R26, R122: the five registers take row `v` of the version table. -/
def State.selectVersion (p : Params) (s : State) (v : Nat) : State :=
  s.setVersion (BitVec.ofNat 4 v) (BitVec.ofNat 6 (4 * v + 17)) (BitVec.ofNat 9 (vtab p v 1))
    (BitVec.ofNat 5 (vtab p v 2)) (BitVec.ofNat 9 (vtab p v 3))

/-- R122. -/
def vselBody (p : Params) (s : State) : Except Fault State :=
  match vsel p s.lenV.toNat with
  | none => .error .ovf
  | some v => .ok (s.selectVersion p v)

/-- `VSEL`, for any value of the parameters: stage 0 to 1 (R122). -/
def vselWith (p : Params) (s : State) : State := s.pipeline 0#5 (vselBody p)

/-- `VSEL` (R122). -/
def execVsel (s : State) : Host.Outcome State Fault Refusal := .next (vselWith params s)

/-! ## Bit stream -/

/-- The width of the character-count indicator (R125). -/
def countWidth (v : Nat) : Nat := if v ≤ 9 then 8 else 16

/-- The stream of R125 before its padding: mode indicator, count, payload, terminator. -/
def streamBits (v : Nat) (l : BitVec 16) (payload : List Byte) : List Bit :=
  [0#1, 1#1, 0#1, 0#1] ++ bitsMsbFirst (countWidth v) l ++ payload.flatMap (bitsMsbFirst 8) ++ [0#1, 0#1, 0#1, 0#1]

/-- `while n mod 8 != 0: append(0)` (R126). -/
def padToByte (bits : List Bit) : List Bit := bits ++ List.replicate ((8 - bits.length % 8) % 8) 0#1

/-- The whole bit stream (R125). -/
def bitStream (v : Nat) (l : BitVec 16) (payload : List Byte) : List Bit := padToByte (streamBits v l payload)

/-- R126: the payload must have been written, every byte of it, before anything is written. -/
def bserBody (s : State) : Except Fault State :=
  match s.payload s.lenV.toNat with
  | none => .error .uninit
  | some d =>
    let bits := bitStream s.verN s.lenV d
    .ok (s.setStream (s.bs.writeRange bsDepth 0 bits) (BitVec.ofNat 12 bits.length))

/-- `BSER` (R126): stage 1 to 2. -/
def bserState (s : State) : State := s.pipeline 1#5 bserBody

/-- `BSER` (R126). -/
def execBser (s : State) : Host.Outcome State Fault Refusal := .next (bserState s)

/-! ## Packing -/

/-- Codeword `k` of the stream: bits 8k..8k+7, the earlier the more significant (R128). -/
def State.streamCodeword (s : State) (k : Nat) : Byte :=
  BitVec.ofNat 8 (numberOfBits ((List.range 8).map (fun i => s.bsAt (8 * k + i))))

/-- Pad codeword `j`, counted from the first pad codeword (R128). -/
def padCodeword (j : Nat) : Byte := if j % 2 = 0 then 0xEC#8 else 0x11#8

/-- The data codewords (R129): those of the stream, then pads up to `DAT`. -/
def State.dataCodewords (s : State) : List Byte :=
  let m := s.blenN / 8
  (List.range m).map s.streamCodeword ++ (List.range (s.datN - m)).map padCodeword

/-- R129. -/
def packBody (s : State) : Except Fault State :=
  .ok (s.setData (s.cw.writeRange cwDepth 0 s.dataCodewords) (BitVec.ofNat 9 s.dataCodewords.length))

/-- `PACK` (R129): stage 2 to 3. -/
def packState (s : State) : State := s.pipeline 2#5 packBody

/-- `PACK` (R129). -/
def execPack (s : State) : Host.Outcome State Fault Refusal := .next (packState s)

/-! ## Reed-Solomon -/

/-- R161. -/
def rsgenBody (s : State) : Except Fault State := .ok (s.loadGen s.ecN (genpoly s.ecN))

/-- `RSGEN` (R161): stage 3 to 4. -/
def rsgenState (s : State) : State := s.pipeline 3#5 rsgenBody

/-- `RSGEN` (R161). -/
def execRsgen (s : State) : Host.Outcome State Fault Refusal := .next (rsgenState s)

/-- R164. -/
def premBody (s : State) : Except Fault State :=
  .ok (s.setRem
    ((s.rem.writeRange remDepth 0 (prem (s.cwList s.ndcN) (s.genList (s.ecN + 1)))).discardFrom s.ecN))

/-- `PREM` (R164): stage 4 to 5. -/
def premState (s : State) : State := s.pipeline 4#5 premBody

/-- `PREM` (R164). -/
def execPrem (s : State) : Host.Outcome State Fault Refusal := .next (premState s)

/-- R166. -/
def catBody (s : State) : Except Fault State :=
  .ok (s.setAll (s.cw.writeRange cwDepth s.ndcN (s.remList s.ecN)) (BitVec.ofNat 9 (s.ndcN + s.ecN)))

/-- `CAT` (R166): stage 5 to 6. -/
def catState (s : State) : State := s.pipeline 5#5 catBody

/-- `CAT` (R166). -/
def execCat (s : State) : Host.Outcome State Fault Refusal := .next (catState s)

end Sys2Proof.Machine
end

