-- ==== Sys2Proof/Machine/Grid.lean ====
section
/-! DEFINITION. The geometry of the symbol, as functions of `SIZE` and the version alone (R182 to R196, R212, R229). -/

namespace Sys2Proof.Machine

open Sys2Proof.Config

/-- A cell `(row, col)` (R10). -/
abbrev Cell := Nat × Nat

/-- The index of a cell in a grid of `n` rows (R66). -/
def cellIndex (n : Nat) (x : Cell) : Nat := x.1 * n + x.2

/-- Writes cells of a grid of `n` rows, in order. -/
def stamp (n : Nat) (m : Memory 1) (cells : List (Cell × Bit)) : Memory 1 :=
  cells.foldl (fun m x => m.write gridDepth (cellIndex n x.1) x.2) m

/-- Sets the flag of each cell, as `RSV[r,c] <- 1` does. -/
def flag (n : Nat) (m : Memory 1) (cells : List Cell) : Memory 1 := stamp n m (cells.map (fun x => (x, 1#1)))

/-- `|a - b|` (R9). -/
def distance (a b : Nat) : Nat := max (a - b) (b - a)

/-- The top-left cells of the three finder patterns (R183). -/
def finderOrigins (n : Nat) : List Cell := [(0, 0), (n - 7, 0), (0, n - 7)]

/-- The value of a finder cell at offset `(i-1, j-1)`, `i`, `j` in 0..8 (R182, R184): the separator is light, and in the
7x7 the inner ring alone is light. -/
def finderBit (i j : Nat) : Bit :=
  if 1 ≤ i ∧ i ≤ 7 ∧ 1 ≤ j ∧ j ≤ 7 then
    if max (distance i 4) (distance j 4) = 2 then 0#1 else 1#1
  else 0#1

/-- The cells of one finder pattern and its separator, clipped to the grid (R184); the offsets -1..7 are `i - 1`. -/
def finderCellsAt (n : Nat) (o : Cell) : List (Cell × Bit) :=
  (List.range 9).flatMap fun i =>
    (List.range 9).filterMap fun j =>
      if 1 ≤ o.1 + i ∧ o.1 + i ≤ n ∧ 1 ≤ o.2 + j ∧ o.2 + j ≤ n then
        some ((o.1 + i - 1, o.2 + j - 1), finderBit i j)
      else none

/-- The cells of the three finder patterns (R184). -/
def finderCells (n : Nat) : List (Cell × Bit) := (finderOrigins n).flatMap (finderCellsAt n)

/-- The value of a timing cell (R185). -/
def timingBit (i : Nat) : Bit := if i % 2 = 0 then 1#1 else 0#1

/-- The timing cells, `i` in 8..`SIZE`-9 (R186). -/
def timingCells (n : Nat) : List (Cell × Bit) :=
  (List.range' 8 (n - 16)).flatMap fun i => [((6, i), timingBit i), ((i, 6), timingBit i)]

/-- The dark module (R187). -/
def darkCell (v : Nat) : Cell := (4 * v + 9, 8)

/-- The value of an alignment cell at offset `(i-2, j-2)`, `i`, `j` in 0..4 (R189). -/
def alignmentBit (i j : Nat) : Bit :=
  if max (distance i 2) (distance j 2) = 1 then 0#1 else 1#1

/-- The 25 cells of an alignment pattern with this centre (R191). -/
def alignmentCells (x : Cell) : List (Cell × Bit) :=
  (List.range 5).flatMap fun i =>
    (List.range 5).map fun j => ((x.1 + i - 2, x.2 + j - 2), alignmentBit i j)

/-- The first format run (R193). -/
def fmt1 : List Cell :=
  [(0, 8), (1, 8), (2, 8), (3, 8), (4, 8), (5, 8), (7, 8), (8, 8), (8, 7), (8, 5), (8, 4), (8, 3), (8, 2), (8, 1), (8, 0)]

/-- The second format run (R194): `k` in 0..7 along row 8, `k` in 8..14 down column 8. -/
def fmt2 (n : Nat) : List Cell :=
  (List.range 8).map (fun k => (8, n - 1 - k)) ++ (List.range' 8 7).map (fun k => (n + k - 15, 8))

/-- The cells of the format information, `FMT1[k]` then `FMT2[k]` for each `k`, with the position `k` (R195, R230). -/
def formatCells (n : Nat) : List (Cell × Nat) :=
  ((fmt1.zip (fmt2 n)).zipIdx).flatMap fun x => [(x.1.1, x.2), (x.1.2, x.2)]

/-- The cells of the version information, each with its transpose, with the position `i` (R196, R197, R232). -/
def versionCells (n : Nat) : List (Cell × Nat) :=
  (List.range 18).flatMap fun i => [((i / 3, n - 11 + i % 3), i), ((n - 11 + i % 3, i / 3), i)]

/-- Bit `i` of a literal of `n` bits (R229). -/
def infobit (o : InfoBitOrder) (w : BitVec 18) (n i : Nat) : Bit :=
  match o with
  | .lsbFirst    => w.extractLsb' i 1
  | .stringOrder => w.extractLsb' (n - 1 - i) 1

/-- The column pairs from a right column on, each with its right column and whether it is scanned upward (R212).
The fuel is the number of pairs at most. -/
def columnPairs : Nat → Nat → Bool → List (Nat × Bool)
  | 0, _, _ => []
  | fuel + 1, right, upward =>
    if 1 ≤ right then
      let r := if right = 6 then 5 else right
      (r, upward) :: columnPairs fuel (r - 2) (!upward)
    else []

/-- The cells of one pair, the right cell of a row before the left one (R212). -/
def pairCells (n : Nat) (x : Nat × Bool) : List Cell :=
  let rows := if x.2 then (List.range n).reverse else List.range n
  rows.flatMap fun r => [(r, x.1), (r, x.1 - 1)]

/-- R212: the cells that `free` lets pass, in scan order. -/
def zigzagOrder (n : Nat) (free : Cell → Bool) : List Cell :=
  ((columnPairs n (n - 1) true).flatMap (pairCells n)).filter free

/-- The predicate of mask 0 (R225). -/
def maskPredicate (x : Cell) : Bool := (x.1 + x.2) % 2 == 0

/-- Every cell of the grid, row by row (R226). -/
def allCells (n : Nat) : List Cell :=
  (List.range n).flatMap fun r => (List.range n).map fun c => (r, c)

end Sys2Proof.Machine
end

