-- ==== Sys2Proof/Machine/Matrix.lean ====
section
/-! DEFINITION. The matrix pipeline `MCLR`, `PFIND`, `PTIME`, `PDARK`, `PALIGN`, `RFMT`, `RVER`, `ZPLACE`, `MASK`, `WFMT`,
`WVER` (R180 to R197, R210 to R213, R225 to R232). -/

namespace Sys2Proof.Machine

open Sys2Proof.Config

/-- A pattern cell is written and reserved (R180). -/
def State.stampReserved (s : State) (cells : List (Cell × Bit)) : State :=
  (s.setVal (stamp s.sizeN s.val cells)).setRsv (flag s.sizeN s.rsv (cells.map Prod.fst))

/-! ## Allocation and patterns -/

/-- The `n` x `n` cells all 0, and no value beyond them (R181). -/
def blankGrid (n : Nat) (m : Memory 1) : Memory 1 :=
  (m.writeRange gridDepth 0 (List.replicate (n * n) 0#1)).discardFrom (n * n)

/-- R181. -/
def mclrBody (s : State) : Except Fault State :=
  .ok ((s.setVal (blankGrid s.sizeN s.val)).setRsv (blankGrid s.sizeN s.rsv))

/-- `MCLR` (R181): stage 6 to 7. -/
def mclrState (s : State) : State := s.pipeline 6#5 mclrBody

/-- `MCLR` (R181). -/
def execMclr (s : State) : Host.Outcome State Fault Refusal := .next (mclrState s)

/-- R184. -/
def pfindBody (s : State) : Except Fault State := .ok (s.stampReserved (finderCells s.sizeN))

/-- `PFIND` (R184): stage 7 to 8. -/
def pfindState (s : State) : State := s.pipeline 7#5 pfindBody

/-- `PFIND` (R184). -/
def execPfind (s : State) : Host.Outcome State Fault Refusal := .next (pfindState s)

/-- R186. -/
def ptimeBody (s : State) : Except Fault State := .ok (s.stampReserved (timingCells s.sizeN))

/-- `PTIME` (R186): stage 8 to 9. -/
def ptimeState (s : State) : State := s.pipeline 8#5 ptimeBody

/-- `PTIME` (R186). -/
def execPtime (s : State) : Host.Outcome State Fault Refusal := .next (ptimeState s)

/-- R188. -/
def pdarkBody (s : State) : Except Fault State := .ok (s.stampReserved [(darkCell s.verN, 1#1)])

/-- `PDARK` (R188): stage 9 to 10. -/
def pdarkState (s : State) : State := s.pipeline 9#5 pdarkBody

/-- `PDARK` (R188). -/
def execPdark (s : State) : Host.Outcome State Fault Refusal := .next (pdarkState s)

/-- The candidate centres of the version in `VER` (R190), rows outer and columns inner, in list order. -/
def State.alignmentCentres (s : State) : List Cell :=
  let base := (s.verN - 1) * 4
  let coords := (List.range (s.atabAt base)).map (fun j => s.atabAt (base + 1 + j))
  coords.flatMap fun r => coords.map fun c => (r, c)

/-- One candidate centre (R190, R191): nothing when its cell is reserved at this moment. -/
def State.alignAt (s : State) (x : Cell) : State :=
  if s.rsvAt s.sizeN x.1 x.2 = 1#1 then s else s.stampReserved (alignmentCells x)

/-- R191. -/
def palignBody (s : State) : Except Fault State := .ok (s.alignmentCentres.foldl State.alignAt s)

/-- `PALIGN` (R191): stage 10 to 11. -/
def palignState (s : State) : State := s.pipeline 10#5 palignBody

/-- `PALIGN` (R191). -/
def execPalign (s : State) : Host.Outcome State Fault Refusal := .next (palignState s)

/-! ## Reservation of the information cells -/

/-- R195: only the flags are written. -/
def rfmtBody (s : State) : Except Fault State :=
  .ok (s.setRsv (flag s.sizeN s.rsv ((formatCells s.sizeN).map Prod.fst)))

/-- `RFMT` (R195): stage 11 to 12. -/
def rfmtState (s : State) : State := s.pipeline 11#5 rfmtBody

/-- `RFMT` (R195). -/
def execRfmt (s : State) : Host.Outcome State Fault Refusal := .next (rfmtState s)

/-- R197: nothing below version 7. -/
def rverBody (s : State) : Except Fault State :=
  if 7 ≤ s.verN then .ok (s.setRsv (flag s.sizeN s.rsv ((versionCells s.sizeN).map Prod.fst)))
  else .ok s

/-- `RVER` (R197): stage 12 to 13. -/
def rverState (s : State) : State := s.pipeline 12#5 rverBody

/-- `RVER` (R197). -/
def execRver (s : State) : Host.Outcome State Fault Refusal := .next (rverState s)

/-! ## Placement and mask -/

/-- The bits to place (R211): the codewords `CW[0..NAC-1]`, most significant bit first. -/
def State.placementBits (s : State) : List Bit := (s.cwList s.nacN).flatMap (bitsMsbFirst 8)

/-- The cells to fill (R212): those not reserved, in scan order. -/
def State.placementCells (s : State) : List Cell :=
  zigzagOrder s.sizeN (fun x => s.rsvAt s.sizeN x.1 x.2 == 0#1)

/-- R213: cell after cell takes bit after bit, until either runs out. -/
def State.placement (s : State) : List (Cell × Bit) := s.placementCells.zip s.placementBits

/-- R213. -/
def zplaceBody (s : State) : Except Fault State :=
  .ok ((s.setVal (stamp s.sizeN s.val s.placement)).setNpl (BitVec.ofNat 12 s.placement.length))

/-- `ZPLACE` (R213): stage 13 to 14. -/
def zplaceState (s : State) : State := s.pipeline 13#5 zplaceBody

/-- `ZPLACE` (R213). -/
def execZplace (s : State) : Host.Outcome State Fault Refusal := .next (zplaceState s)

/-- The cells that mask 0 inverts, with their new values (R226). -/
def State.maskedCells (s : State) : List (Cell × Bit) :=
  ((allCells s.sizeN).filter (fun x => s.rsvAt s.sizeN x.1 x.2 == 0#1 && maskPredicate x)).map
    (fun x => (x, s.valAt s.sizeN x.1 x.2 ^^^ 1#1))

/-- R226; each cell is visited once, so the new values are those of the grid before the command. -/
def maskBody (s : State) : Except Fault State := .ok (s.setVal (stamp s.sizeN s.val s.maskedCells))

/-- `MASK` (R226): stage 14 to 15. -/
def maskState (s : State) : State := s.pipeline 14#5 maskBody

/-- `MASK` (R226). -/
def execMask (s : State) : Host.Outcome State Fault Refusal := .next (maskState s)

/-! ## Format and version information -/

/-- The cells of a literal of `n` bits with their values (R229, R230, R232). -/
def infoCells (p : Params) (w : BitVec 18) (n : Nat) (cells : List (Cell × Nat)) : List (Cell × Bit) :=
  cells.map (fun x => (x.1, infobit p.infoBitOrder w n x.2))

/-- R230. -/
def wfmtBody (p : Params) (s : State) : Except Fault State :=
  .ok (s.setVal (stamp s.sizeN s.val (infoCells p (s.infoAt 0) 15 (formatCells s.sizeN))))

/-- `WFMT`, for any value of the parameters: stage 15 to 16 (R230). -/
def wfmtWith (p : Params) (s : State) : State := s.pipeline 15#5 (wfmtBody p)

/-- `WFMT` (R230). -/
def execWfmt (s : State) : Host.Outcome State Fault Refusal := .next (wfmtWith params s)

/-- R232: nothing below version 7. -/
def wverBody (p : Params) (s : State) : Except Fault State :=
  if 7 ≤ s.verN then
    .ok (s.setVal (stamp s.sizeN s.val (infoCells p (s.infoAt s.verN) 18 (versionCells s.sizeN))))
  else .ok s

/-- `WVER`, for any value of the parameters: stage 16 to 17 (R232). -/
def wverWith (p : Params) (s : State) : State := s.pipeline 16#5 (wverBody p)

/-- `WVER` (R232). -/
def execWver (s : State) : Host.Outcome State Fault Refusal := .next (wverWith params s)

end Sys2Proof.Machine
end

