-- ==== Sys2Proof/Machine/Control.lean ====
section
/-! DEFINITION. The control commands `NOP`, `CLR`, `ENCODE` (R114 to R116). -/

namespace Sys2Proof.Machine

open Sys2Proof.Config

/-- `NOP` (R114): nothing, in stages 0..17; nothing in stage `ERR` either (R247). -/
def execNop (s : State) : Host.Outcome State Fault Refusal := .next (s.command running .ok)

/-- `CLR` (R115): in every stage of R29, stage `ERR` included, everything takes its reset value. -/
def execClr (s : State) : Host.Outcome State Fault Refusal :=
  .next (if s.stage = stageErr then s.cleared else s.command running (fun s => .ok s.cleared))

/-- The seventeen commands of an encode, in order (R111, R116). -/
def pipelineStates (p : Params) : List (State → State) :=
  [vselWith p, bserState, packState, rsgenState, premState, catState, mclrState, pfindState, ptimeState, pdarkState,
   palignState, rfmtState, rverState, zplaceState, maskState, wfmtWith p, wverWith p]

/-- R116: each is performed as its own rule says, and a fault stops the chain with the fault entry made. -/
def runChain (s : State) (fs : List (State → State)) : State :=
  fs.foldl (fun t f => if t.stage = stageErr then t else f t) s

/-- `ENCODE`, for any value of the parameters: stage 0 to 17, or to 31 on a fault (R116). -/
def encodeWith (p : Params) (s : State) : State :=
  s.command (fun k => k == 0#5) (fun s => .ok (runChain s (pipelineStates p)))

/-- `ENCODE` (R116). -/
def execEncode (s : State) : Host.Outcome State Fault Refusal := .next (encodeWith params s)

end Sys2Proof.Machine
end

