-- ==== Sys2Proof/Machine/Dispatch.lean ====
section
/-! DEFINITION. One arm per command. -/

namespace Sys2Proof.Machine

def exec (i : Instr) (s : State) : Host.Outcome State Fault Refusal :=
  match i with
  | .nop => Sys2Proof.Machine.execNop s
  | .clr => Sys2Proof.Machine.execClr s
  | .encode => Sys2Proof.Machine.execEncode s
  | .gfmul a b => Sys2Proof.Machine.execGfmul a b s
  | .gfadd a b => Sys2Proof.Machine.execGfadd a b s
  | .genp a => Sys2Proof.Machine.execGenp a s
  | .pmull a => Sys2Proof.Machine.execPmull a s
  | .vsel => Sys2Proof.Machine.execVsel s
  | .bser => Sys2Proof.Machine.execBser s
  | .pack => Sys2Proof.Machine.execPack s
  | .rsgen => Sys2Proof.Machine.execRsgen s
  | .prem => Sys2Proof.Machine.execPrem s
  | .cat => Sys2Proof.Machine.execCat s
  | .mclr => Sys2Proof.Machine.execMclr s
  | .pfind => Sys2Proof.Machine.execPfind s
  | .ptime => Sys2Proof.Machine.execPtime s
  | .pdark => Sys2Proof.Machine.execPdark s
  | .palign => Sys2Proof.Machine.execPalign s
  | .rfmt => Sys2Proof.Machine.execRfmt s
  | .rver => Sys2Proof.Machine.execRver s
  | .zplace => Sys2Proof.Machine.execZplace s
  | .mask => Sys2Proof.Machine.execMask s
  | .wfmt => Sys2Proof.Machine.execWfmt s
  | .wver => Sys2Proof.Machine.execWver s

end Sys2Proof.Machine
end

