-- ==== Sys2Proof/Machine/Issue.lean ====
section
/-! DEFINITION. The issue of a command word (R90, R92) and the performance of one host transaction (R60 to R62, R270). -/

namespace Sys2Proof.Machine

open Sys2Proof.Config

/-- The one word that acts in stage `ERR` (R247). -/
def clrWord : Word := 0x01000000#32

/-- R92: in stage `ERR` only the word of `CLR` acts; a word that is no command raises `ILL`; a command is executed. -/
def issue (w : Word) (s : State) : Host.Outcome State Fault Refusal :=
  if s.stage = stageErr then
    if w = clrWord then exec .clr s else .next s
  else
    match decode w with
    | .error _ => .next (s.raise .ill)
    | .ok i => exec i s

/-- `MemWrite(space, idx, v)` (R62, R63). A write to `CMD` issues its value. -/
def memWrite (space idx v : Nat) (s : State) : Host.Outcome State Fault Refusal :=
  if s.illegalWrite space idx v then .next (s.raise .acc)
  else
    match SpaceId.ofId space, idx with
    | some .reg, 0 => issue (BitVec.ofNat 32 v) s
    | some x, i => .next (s.store x i v)
    | none, _ => .next s

/-- One transaction or reset, whole (R60, R69, R70, R270). Only a read returns a value (log 3). -/
def perform (op : HostOp) (s : State) : Host.Outcome State Fault Refusal :=
  match op with
  | .reset => .next (s.cleared.respond none)
  | .read space idx => .next (s.memRead params space idx)
  | .write space idx v => memWrite space idx v (s.respond none)

/-- The host has a command word to write next (R90). -/
def State.withCommand (s : State) (v : Nat) : State := { s with host := .write 0 0 v :: s.host }

end Sys2Proof.Machine
end

