-- ==== Sys2Proof/Machine/Step.lean ====
section
/-! DEFINITION. One step: the next pending host transaction is performed (R70, R256). -/

namespace Sys2Proof.Machine

/-- R70, R272: transactions are performed one at a time, in order, each to its end; with none pending the block waits. -/
def step (s : State) : Host.Outcome State Fault Refusal :=
  match s.host with
  | [] => .next s
  | op :: rest => perform op (s.takeOp rest)

/-- The state whose very next step issues the opcode table's word `w`: a host write of it to `CMD` is the next pending
transaction (R72, R90; log 1). -/
def State.withFetchWord (s : State) (nbits w : Nat) : State := s.withCommand (w % 2 ^ nbits)

end Sys2Proof.Machine
end

