-- ==== Sys2Proof/Safety.lean ====
section
/-! DEFINITION. What a state of a run looks like: the invariants that the claims are stated with. -/

namespace Sys2Proof.Machine

open Sys2Proof.Config

/-! ## Memories -/

/-- A space in canonical form, with no element beyond its depth. -/
def Memory.ok {w : Nat} (depth : Nat) (m : Memory w) : Bool := m.wf && m.within depth

/-- The seven spaces are in canonical form and inside their depths (R30, R281). -/
abbrev State.MemoryOk (s : State) : Prop :=
  s.inp.ok inDepth = true ∧ s.bs.ok bsDepth = true ∧ s.cw.ok cwDepth = true ∧ s.gen.ok genDepth = true ∧
  s.rem.ok remDepth = true ∧ s.val.ok gridDepth = true ∧ s.rsv.ok gridDepth = true

/-- Every element below `n` holds a value. -/
def Memory.holdsBelow {w : Nat} (m : Memory w) (n : Nat) : Bool := (List.range n).all (fun k => (m.read k).isSome)

/-! ## Stage and fault code -/

/-- The values of `STAGE` that a rule produces (R29). -/
abbrev State.LegalStage (s : State) : Prop := s.stage.toNat ≤ 17 ∨ s.stage = stageErr

/-- The values of `ERRC` that a rule produces (R241), nonzero exactly in stage `ERR` (R245). -/
abbrev State.LegalCode (s : State) : Prop :=
  s.errc ≠ Fault.tbl.code ∧ s.errc ≠ 7#3 ∧ (s.stage = stageErr ↔ s.errc ≠ 0#3)

/-- No data register and no RAM element holds a value (R44, R245). -/
abbrev State.DataEmpty (s : State) : Prop :=
  s.ver = none ∧ s.size = none ∧ s.tot = none ∧ s.ec = none ∧ s.dat = none ∧ s.blen = none ∧ s.ndc = none ∧
  s.nac = none ∧ s.gdeg = none ∧ s.p = none ∧ s.npl = none ∧
  s.inp = [] ∧ s.bs = [] ∧ s.cw = [] ∧ s.gen = [] ∧ s.rem = [] ∧ s.val = [] ∧ s.rsv = []

/-- `LEN` holds no value exactly in stage `ERR` (R23, C11), where nothing else does either (R245). -/
abbrev State.ErrEmpty (s : State) : Prop :=
  (s.stage = stageErr ↔ s.len = none) ∧ (s.stage = stageErr → s.DataEmpty)

/-! ## What each stage of an encode has left (R23, R29) -/

/-- The stage is at least `k` and at most 17. -/
abbrev State.Reached (s : State) (k : Nat) : Prop := k ≤ s.stage.toNat ∧ s.stage.toNat ≤ 17

/-- The declared payload length. -/
def State.lengthN (s : State) : Nat := (s.len.getD 0).toNat

/-- The version of the declared length, 0 for none (R120). -/
def State.chosen (s : State) : Nat := (vsel params s.lengthN).getD 0

/-- The codewords of the stream, `m` of R131. -/
def streamCodewords (v l : Nat) : Nat := if v ≤ 9 then l + 2 else l + 3

/-- The number of data codewords (R129). -/
def State.dataCount (s : State) : Nat := max (streamCodewords s.chosen s.lengthN) (vtab params s.chosen 3)

/-- `ecCodewords` of the chosen version. -/
def State.parityCount (s : State) : Nat := vtab params s.chosen 2

/-- The cells of a grid of the chosen version. -/
def State.cellCount (s : State) : Nat := (4 * s.chosen + 17) * (4 * s.chosen + 17)

/-- What `VSEL` leaves (R122): the row of the version table that `LEN` selects. -/
abbrev State.SelectedOk (s : State) : Prop :=
  (s.stage = 0#5 → s.ver = none ∧ s.size = none ∧ s.tot = none ∧ s.ec = none ∧ s.dat = none) ∧
  (s.Reached 1 →
    1 ≤ s.chosen ∧
    s.ver = some (BitVec.ofNat 4 s.chosen) ∧
    s.size = some (BitVec.ofNat 6 (4 * s.chosen + 17)) ∧
    s.tot = some (BitVec.ofNat 9 (vtab params s.chosen 1)) ∧
    s.ec = some (BitVec.ofNat 5 s.parityCount) ∧
    s.dat = some (BitVec.ofNat 9 (vtab params s.chosen 3)))

/-- What `BSER` leaves (R126, R127): a written payload and a stream of whole codewords. -/
abbrev State.StreamOk (s : State) : Prop :=
  (s.stage.toNat ≤ 1 → s.blen = none ∧ s.bs = []) ∧
  (s.Reached 2 →
    s.inp.holdsBelow s.lengthN = true ∧
    s.blen = some (BitVec.ofNat 12 (8 * streamCodewords s.chosen s.lengthN)) ∧
    s.bs.live = List.range (8 * streamCodewords s.chosen s.lengthN))

/-- What `PACK` and `CAT` leave (R129, R166): the codewords, and how many. -/
abbrev State.CodewordsOk (s : State) : Prop :=
  (s.stage.toNat ≤ 2 → s.ndc = none ∧ s.cw = []) ∧
  (s.Reached 3 → s.ndc = some (BitVec.ofNat 9 s.dataCount)) ∧
  (s.stage.toNat ≤ 5 → s.nac = none) ∧
  (s.Reached 3 ∧ s.stage.toNat ≤ 5 → s.cw.live = List.range s.dataCount) ∧
  (s.Reached 6 →
    s.nac = some (BitVec.ofNat 9 (s.dataCount + s.parityCount)) ∧
    s.cw.live = List.range (s.dataCount + s.parityCount))

/-- What `GENP`, `PMULL`, `RSGEN` leave (R28, R152, R153, R161): `GDEG`+1 coefficients, from `RSGEN` on those of the
generator. -/
abbrev State.GeneratorOk (s : State) : Prop :=
  (s.gdeg.getD 0).toNat ≤ 30 ∧
  s.gen.live = List.range ((s.gdeg.map (fun d => d.toNat + 1)).getD 0) ∧
  (s.Reached 4 → s.gdeg = some (BitVec.ofNat 5 s.parityCount) ∧ s.gen = Memory.number 0 (genpoly s.parityCount))

/-- What `PREM` leaves (R164). -/
abbrev State.ParityOk (s : State) : Prop :=
  (s.stage.toNat ≤ 4 → s.rem = []) ∧
  (s.Reached 5 → s.rem.live = List.range s.parityCount)

/-- What `MCLR` and `ZPLACE` leave (R181, R213). -/
abbrev State.GridsOk (s : State) : Prop :=
  (s.stage.toNat ≤ 6 → s.val = [] ∧ s.rsv = []) ∧
  (s.Reached 7 → s.val.live = List.range s.cellCount ∧ s.rsv.live = List.range s.cellCount) ∧
  (s.stage.toNat ≤ 13 → s.npl = none) ∧
  (s.Reached 14 → s.npl.isSome = true)

/-- The invariant of a run: the memories are canonical, stage and code are legal, nothing is left after a fault, and
each stage holds exactly what the commands before it write. -/
structure State.Sound (s : State) : Prop where
  memory    : s.MemoryOk
  stage     : s.LegalStage
  code      : s.LegalCode
  empty     : s.ErrEmpty
  selected  : s.SelectedOk
  stream    : s.StreamOk
  codewords : s.CodewordsOk
  generator : s.GeneratorOk
  parity    : s.ParityOk
  grids     : s.GridsOk

/-- The same, as a check that can be evaluated. -/
def State.soundCheck (s : State) : Bool :=
  decide s.MemoryOk && decide s.LegalStage && decide s.LegalCode && decide s.ErrEmpty && decide s.SelectedOk &&
  decide s.StreamOk && decide s.CodewordsOk && decide s.GeneratorOk && decide s.ParityOk && decide s.GridsOk

end Sys2Proof.Machine
end

