-- ==== Sys2Proof/WellFormed.lean ====
section
/-! DEFINITION. The operand ranges of a command (R96). Every other operand is in range by its type (R93). -/

namespace Sys2Proof

/-- R96: `GENP` needs a degree of at most 30; every operand of every other command is legal. -/
def Instr.wellFormed : Instr → Bool
  | .genp a => decide (a.toNat ≤ 30)
  | .nop | .clr | .encode | .gfmul _ _ | .gfadd _ _ | .pmull _ | .vsel | .bser | .pack | .rsgen | .prem | .cat
  | .mclr | .pfind | .ptime | .pdark | .palign | .rfmt | .rver | .zplace | .mask | .wfmt | .wver => true

end Sys2Proof
end

