-- ==== Sys2Proof/Certificates/Slice0/Obligations.lean ====
section
/-! DEFINITION. The statements for the provers, each with the rule of the spec it formalises, and the vocabulary they share. -/

namespace Sys2Proof.Claims

open Sys2Proof.Machine

/-! ## Vocabulary: whole states -/

/-- The values of R44, written out; what is pending, answered and drawn is the model's own and stays. -/
def resetValues (s : State) : State :=
  { stage := 0#5, errc := 0#3, len := some 0#16,
    ver := none, size := none, tot := none, ec := none, dat := none, blen := none, ndc := none, nac := none,
    gdeg := none, p := none, npl := none,
    inp := [], bs := [], cw := [], gen := [], rem := [], val := [], rsv := [],
    host := s.host, resp := s.resp, draws := s.draws }

/-- What R245's fault entry leaves of a state that is not in stage `ERR`. -/
def afterFault (s : State) (code : BitVec 3) : State :=
  { stage := 31#5, errc := code, len := none,
    ver := none, size := none, tot := none, ec := none, dat := none, blen := none, ndc := none, nac := none,
    gdeg := none, p := none, npl := none,
    inp := [], bs := [], cw := [], gen := [], rem := [], val := [], rsv := [],
    host := s.host, resp := s.resp, draws := s.draws }

/-- Commands performed one after another. -/
def runAll : List Instr → State → Host.Outcome State Fault Refusal
  | [], s => .next s
  | i :: is, s =>
    match exec i s with
    | .next t => runAll is t
    | .fault f => .fault f
    | .refused r => .refused r

/-! ## Vocabulary: words -/

/-- The opcodes of format N in R94. -/
def opcodesN : List Nat :=
  [0x00, 0x01, 0x02, 0x20, 0x21, 0x22, 0x23, 0x24, 0x25,
   0x30, 0x31, 0x32, 0x33, 0x34, 0x35, 0x36, 0x37, 0x38, 0x39, 0x3A]

/-- The word is one that R94 lists: an opcode of the map, with the reserved field of its format zero. -/
abbrev CommandWord (w : Word) : Prop :=
  (w.toNat / 2 ^ 24 ∈ opcodesN ∧ w.toNat % 2 ^ 24 = 0) ∨
  (w.toNat / 2 ^ 24 ∈ [0x12, 0x13] ∧ w.toNat % 2 ^ 16 = 0) ∨
  (w.toNat / 2 ^ 24 ∈ [0x10, 0x11] ∧ w.toNat % 2 ^ 8 = 0)

/-- Words written out from the "Word" column and the examples of R94, R97. -/
def specWords : List (Word × Instr) :=
  [ (0x00000000#32, .nop),
    (0x01000000#32, .clr),
    (0x02000000#32, .encode),
    (0x1053CA00#32, .gfmul 0x53#8 0xCA#8),
    (0x1153CA00#32, .gfadd 0x53#8 0xCA#8),
    (0x12070000#32, .genp 7#8),
    (0x13FF0000#32, .pmull 0xFF#8),
    (0x20000000#32, .vsel),
    (0x25000000#32, .cat),
    (0x30000000#32, .mclr),
    (0x3A000000#32, .wver) ]

/-- The stages in which R112 accepts a command, stage 31 aside. -/
def acceptedStages : Instr → List Nat
  | .nop | .clr | .gfmul _ _ | .gfadd _ _ => List.range 18
  | .encode | .genp _ | .pmull _ | .vsel => [0]
  | .bser => [1]
  | .pack => [2]
  | .rsgen => [3]
  | .prem => [4]
  | .cat => [5]
  | .mclr => [6]
  | .pfind => [7]
  | .ptime => [8]
  | .pdark => [9]
  | .palign => [10]
  | .rfmt => [11]
  | .rver => [12]
  | .zplace => [13]
  | .mask => [14]
  | .wfmt => [15]
  | .wver => [16]

/-- `STAGE` afterwards (R112), for a command accepted in stage `k` that does not fault. -/
def stageAfter : Instr → Nat → Nat
  | .nop, k | .gfmul _ _, k | .gfadd _ _, k | .genp _, k | .pmull _, k => k
  | .clr, _ => 0
  | .encode, _ => 17
  | .vsel, k | .bser, k | .pack, k | .rsgen, k | .prem, k | .cat, k | .mclr, k | .pfind, k | .ptime, k | .pdark, k
  | .palign, k | .rfmt, k | .rver, k | .zplace, k | .mask, k | .wfmt, k | .wver, k => k + 1

/-- The commands that name a fault of their own: `OVF` or `UNINIT` in `ENCODE` (R116), `ILL` in `GENP` (R152), `UNINIT` or
`ILL` in `PMULL` (R153), `OVF` in `VSEL` (R122), `UNINIT` in `BSER` (R126). -/
def canFault : Instr → Bool
  | .encode | .genp _ | .pmull _ | .vsel | .bser => true
  | .nop | .clr | .gfmul _ _ | .gfadd _ _ | .pack | .rsgen | .prem | .cat | .mclr | .pfind | .ptime | .pdark | .palign
  | .rfmt | .rver | .zplace | .mask | .wfmt | .wver => false

/-! ## Vocabulary: versions and payloads -/

/-- A row of R123. -/
structure VersionRange where
  lo : Nat
  hi : Nat
  ver : Nat
  size : Nat
  tot : Nat
  ec : Nat
  dat : Nat
  deriving DecidableEq, Repr

/-- The table of R123, with `V10_MAX_BYTES` = 253 (R8). -/
def versionRanges : List VersionRange :=
  [ ⟨0, 17, 1, 21, 19, 7, 12⟩,
    ⟨18, 32, 2, 25, 34, 10, 24⟩,
    ⟨33, 53, 3, 29, 55, 15, 40⟩,
    ⟨54, 78, 4, 33, 80, 20, 60⟩,
    ⟨79, 106, 5, 37, 108, 26, 82⟩,
    ⟨107, 134, 6, 41, 136, 18, 118⟩,
    ⟨135, 154, 7, 45, 156, 20, 136⟩,
    ⟨155, 192, 8, 49, 194, 24, 170⟩,
    ⟨193, 230, 9, 53, 232, 30, 202⟩,
    ⟨231, 253, 10, 57, 274, 18, 256⟩ ]

/-- The declared length is `l` and every payload byte below it was written. -/
abbrev PayloadHeld (s : State) (l : Nat) : Prop :=
  l < 2 ^ 16 ∧ s.len = some (BitVec.ofNat 16 l) ∧ s.inp.holdsBelow l = true

/-- Bit `k` of the stream of R125, from the payload in `IN`. -/
def streamBit (s : State) (v l k : Nat) : Option Bit :=
  let width := if v ≤ 9 then 8 else 16
  if k < 4 then some (if k = 1 then 1#1 else 0#1)
  else if k < 4 + width then some (BitVec.ofBool (l.testBit (width - 1 - (k - 4))))
  else if k < 4 + width + 8 * l then
    (s.inp.read ((k - 4 - width) / 8)).map (fun b => b.extractLsb' (7 - (k - 4 - width) % 8) 1)
  else some 0#1

/-- Bit `j` of the codewords in `CW`, most significant bit of each first (R211). -/
def dataBit (s : State) (j : Nat) : Option Bit := (s.cw.read (j / 8)).map (fun b => b.extractLsb' (7 - j % 8) 1)

/-! ## Vocabulary: field and polynomials -/

/-- Multiplication by `x` modulo `x^8+x^4+x^3+x^2+1` (R140). -/
def timesX (a : Byte) : Byte := (a <<< 1) ^^^ (if a.getLsbD 7 then 0x1D#8 else 0#8)

/-- The product of two polynomials over GF(2) modulo `0x11D` (R140), bit by bit of the first. -/
def productMod (a b : Byte) : Byte :=
  ((List.range 8).foldl
    (fun acc i => (if a.getLsbD i then acc.1 ^^^ acc.2 else acc.1, timesX acc.2)) (0#8, b)).1

/-- The value of a polynomial, highest-degree coefficient first, at a point. -/
def evalAt (q : Poly) (x : Byte) : Byte := q.foldl (fun acc c => gfmul acc x ^^^ c) 0#8

/-- Coefficient `k` of a product (R149): the sum of the terms whose indexes sum to `k`. -/
def productCoefficient (p q : Poly) (k : Nat) : Byte :=
  (List.range (k + 1)).foldl (fun acc i => acc ^^^ gfmul (p.getD i 0#8) (q.getD (k - i) 0#8)) 0#8

/-! ## Vocabulary: grids -/

/-- `VER` and `SIZE` hold version `v`, 1 to 10, and its size (R26). -/
abbrev SizedFor (s : State) (v : Nat) : Prop :=
  1 ≤ v ∧ v ≤ 10 ∧ s.ver = some (BitVec.ofNat 4 v) ∧ s.size = some (BitVec.ofNat 6 (4 * v + 17))

/-- From `m` to `m'`, a grid of `n` rows took at `(r, c)` the value that `f` gives there, and kept its content
everywhere else, beyond the grid too. -/
def Painted (n : Nat) (m m' : Memory 1) (f : Nat → Nat → Option Bit) : Prop :=
  (∀ r c, r < n → c < n → m'.read (r * n + c) = (f r c).or (m.read (r * n + c))) ∧
  ∀ k, n * n ≤ k → m'.read k = m.read k

/-- The same cells, each with the flag 1. -/
def flagged (f : Nat → Nat → Option Bit) (r c : Nat) : Option Bit := (f r c).map (fun _ => 1#1)

/-- The cell `(r, c)` of a finder pattern whose 7x7 starts at `(r0, c0)`, separator included (R182, R183). -/
def finderAt (r0 c0 r c : Nat) : Option Bit :=
  if r0 ≤ r + 1 ∧ r ≤ r0 + 7 ∧ c0 ≤ c + 1 ∧ c ≤ c0 + 7 then
    some (if r0 ≤ r ∧ r ≤ r0 + 6 ∧ c0 ≤ c ∧ c ≤ c0 + 6 ∧
        max (Int.natAbs ((r : Int) - (r0 + 3))) (Int.natAbs ((c : Int) - (c0 + 3))) ≠ 2 then 1#1 else 0#1)
  else none

/-- The three finder patterns (R183). -/
def finderPaint (n r c : Nat) : Option Bit :=
  ((finderAt 0 0 r c).or (finderAt (n - 7) 0 r c)).or (finderAt 0 (n - 7) r c)

/-- The timing patterns (R185). -/
def timingPaint (n r c : Nat) : Option Bit :=
  if r = 6 ∧ 8 ≤ c ∧ c + 9 ≤ n then some (if c % 2 = 0 then 1#1 else 0#1)
  else if c = 6 ∧ 8 ≤ r ∧ r + 9 ≤ n then some (if r % 2 = 0 then 1#1 else 0#1)
  else none

/-- The dark module (R187). -/
def darkPaint (v r c : Nat) : Option Bit := if r = 4 * v + 9 ∧ c = 8 then some 1#1 else none

/-- The coordinate list of a version (R41). -/
def coordinates : Nat → List Nat
  | 2 => [6, 18]
  | 3 => [6, 22]
  | 4 => [6, 26]
  | 5 => [6, 30]
  | 6 => [6, 34]
  | 7 => [6, 22, 38]
  | 8 => [6, 24, 42]
  | 9 => [6, 26, 46]
  | 10 => [6, 28, 50]
  | _ => []

/-- The centres that R190's table says are stamped. -/
def stampedCentres : Nat → List (Nat × Nat)
  | 2 => [(18, 18)]
  | 3 => [(22, 22)]
  | 4 => [(26, 26)]
  | 5 => [(30, 30)]
  | 6 => [(34, 34)]
  | 7 => [(22, 22), (22, 38), (38, 22), (38, 38)]
  | 8 => [(24, 24), (24, 42), (42, 24), (42, 42)]
  | 9 => [(26, 26), (26, 46), (46, 26), (46, 46)]
  | 10 => [(28, 28), (28, 50), (50, 28), (50, 50)]
  | _ => []

/-- The Chebyshev distance of two cells (R189). -/
def chebyshev (x y : Nat × Nat) : Nat :=
  max (Int.natAbs ((x.1 : Int) - y.1)) (Int.natAbs ((x.2 : Int) - y.2))

/-- The alignment patterns (R189, R190). -/
def alignmentPaint (v r c : Nat) : Option Bit :=
  ((stampedCentres v).find? (fun x => decide (chebyshev x (r, c) ≤ 2))).map
    (fun x => if chebyshev x (r, c) = 1 then 0#1 else 1#1)

/-- The position of a cell in a format run (R193, R194). -/
def formatPosition (n r c : Nat) : Option Nat :=
  if c = 8 ∧ r ≤ 5 then some r
  else if c = 8 ∧ r = 7 then some 6
  else if c = 8 ∧ r = 8 then some 7
  else if r = 8 ∧ c = 7 then some 8
  else if r = 8 ∧ c ≤ 5 then some (14 - c)
  else if r = 8 ∧ n ≤ c + 8 then some (n - 1 - c)
  else if c = 8 ∧ n ≤ r + 7 then some (r + 15 - n)
  else none

/-- The format cells with their bits, `lsb_first` (R231). -/
def formatPaint (n r c : Nat) : Option Bit :=
  (formatPosition n r c).map (fun k => BitVec.ofBool (Nat.testBit 0x77C4 k))

/-- The position of a cell in the version information (R196). -/
def versionPosition (n r c : Nat) : Option Nat :=
  if r < 6 ∧ n ≤ c + 11 ∧ c + 9 ≤ n then some (3 * r + (c + 11 - n))
  else if c < 6 ∧ n ≤ r + 11 ∧ r + 9 ≤ n then some (3 * c + (r + 11 - n))
  else none

/-- The version literals (R42). -/
def versionLiteral : Nat → Nat
  | 7 => 0x07C94
  | 8 => 0x085BC
  | 9 => 0x09A99
  | 10 => 0x0A4D3
  | _ => 0

/-- The version cells with their bits, `lsb_first`, from version 7 on (R232, R233). -/
def versionPaint (v r c : Nat) : Option Bit :=
  if 7 ≤ v then (versionPosition (4 * v + 17) r c).map (fun i => BitVec.ofBool ((versionLiteral v).testBit i))
  else none

/-- Every cell of a finished symbol that does not depend on the payload. -/
def fixedPaint (v r c : Nat) : Option Bit :=
  (finderPaint (4 * v + 17) r c).or ((timingPaint (4 * v + 17) r c).or ((darkPaint v r c).or
    ((alignmentPaint v r c).or ((formatPaint (4 * v + 17) r c).or (versionPaint v r c)))))

/-- The column pairs of `SIZE` = 4v+17, by their right columns, and whether each is scanned upward (R214). -/
def scanPairs (v : Nat) : List (Nat × Bool) :=
  (List.range (2 * v + 5)).map (fun j => (4 * v + 16 - 2 * j, j % 2 == 0)) ++ [(5, false), (3, true), (1, false)]

/-- The `k`-th cell of a column pair in a grid of `n` rows (R212): two cells a row, the right one first, the rows from the
bottom when the pair is scanned upward, else from the top. -/
def scanCell (n right : Nat) (upward : Bool) (k : Nat) : Cell :=
  (if upward then n - 1 - k / 2 else k / 2, if k % 2 = 0 then right else right - 1)

/-- The scan order of the cells that are not reserved (R212). -/
def freeOrder (n : Nat) (rsv : Memory 1) : List Cell :=
  zigzagOrder n (fun x => rsv.read (x.1 * n + x.2) == some 0#1)

/-! ## Vocabulary: host accesses -/

/-- The depths of R30, by space id. -/
def depths : List Nat := [14, 512, 4096, 512, 31, 30, 4096, 4096, 511, 256, 40, 40, 11]

/-- R63 (a), (b): no such element. -/
abbrev NoElement (space idx : Nat) : Prop :=
  13 ≤ space ∨ depths.getD space 0 ≤ idx ∨ (space = 12 ∧ 1 ≤ idx ∧ idx ≤ 6)

/-- R63 (a), (b), (c). -/
abbrev IllegalRead (space idx : Nat) : Prop := NoElement space idx ∨ (space = 0 ∧ idx = 0)

/-- R63 (a), (b), (d), (e), (f). -/
abbrev IllegalWrite (s : State) (space idx v : Nat) : Prop :=
  NoElement space idx ∨
  ¬ ((space = 0 ∧ idx = 0) ∨ (space = 0 ∧ idx = 2) ∨ space = 1) ∨
  (((space = 0 ∧ idx = 2) ∨ space = 1) ∧ s.stage ≠ 0#5) ∨
  ((space = 0 ∧ idx = 2) ∧ 2 ^ 16 ≤ v) ∨ (space = 1 ∧ 2 ^ 8 ≤ v) ∨ ((space = 0 ∧ idx = 0) ∧ 2 ^ 32 ≤ v)

/-- The content of a register, by number (R21). -/
def registerContent (s : State) : Nat → Option Nat
  | 2 => s.len.map BitVec.toNat
  | 3 => s.ver.map BitVec.toNat
  | 4 => s.size.map BitVec.toNat
  | 5 => s.tot.map BitVec.toNat
  | 6 => s.ec.map BitVec.toNat
  | 7 => s.dat.map BitVec.toNat
  | 8 => s.blen.map BitVec.toNat
  | 9 => s.ndc.map BitVec.toNat
  | 10 => s.nac.map BitVec.toNat
  | 11 => s.gdeg.map BitVec.toNat
  | 12 => s.p.map BitVec.toNat
  | 13 => s.npl.map BitVec.toNat
  | _ => none

/-- Field `f` of row `v` of the version table (R40, `V10_MAX_BYTES` = 253 by R8): `maxBytes`, `total`, `ec`, `data`. -/
def vtabContent (v f : Nat) : Option Nat :=
  (versionRanges.find? (fun row => row.ver == v)).bind (fun row => [row.hi, row.tot, row.ec, row.dat][f]?)

/-- Element `j` of row `v` of the alignment table (R41): the count, then the coordinates, unused ones 0. -/
def atabContent (v j : Nat) : Option Nat :=
  if 1 ≤ v ∧ v ≤ 10 ∧ j < 4 then some (((coordinates v).length :: coordinates v).getD j 0) else none

/-- The literals (R42): format at 0, versions at 7 to 10. -/
def infoContent (i : Nat) : Option Nat :=
  if i = 0 then some 0x77C4 else if 7 ≤ i ∧ i ≤ 10 then some (versionLiteral i) else none

/-- The widths of the registers, by number (R21). -/
def registerWidths : List Nat := [32, 32, 16, 4, 6, 9, 5, 9, 12, 9, 9, 5, 8, 12]

/-- The width of an element (R21, R30), by space id and index. -/
def widthOf (space idx : Nat) : Nat :=
  if space = 0 then registerWidths.getD idx 0 else [0, 8, 1, 8, 8, 8, 1, 1, 8, 8, 9, 6, 18].getD space 0

/-- The content of an element, by space id (R30, R37 to R42), `STATUS` aside. -/
def content (s : State) : Nat → Nat → Option Nat
  | 0, i => registerContent s i
  | 1, i => (s.inp.read i).map BitVec.toNat
  | 2, i => (s.bs.read i).map BitVec.toNat
  | 3, i => (s.cw.read i).map BitVec.toNat
  | 4, i => (s.gen.read i).map BitVec.toNat
  | 5, i => (s.rem.read i).map BitVec.toNat
  | 6, i => (s.val.read i).map BitVec.toNat
  | 7, i => (s.rsv.read i).map BitVec.toNat
  | 8, i => (romExp i).map BitVec.toNat
  | 9, i => (romLog i).map BitVec.toNat
  | 10, i => vtabContent (i / 4 + 1) (i % 4)
  | 11, i => atabContent (i / 4 + 1) (i % 4)
  | 12, i => infoContent i
  | _, _ => none

end Sys2Proof.Claims

open Sys2Proof Sys2Proof.Machine Sys2Proof.Claims

/-! ## Encoding -/

/-- R91, R94: no bit of a command is lost between the encoder and the decoder, in either direction. -/
def Obligations.DecodeAndEncodeAgree : Prop :=
  (∀ i : Instr, decode (encode i) = .ok i) ∧ ∀ (w : Word) (i : Instr), decode w = .ok i → encode i = w

/-- R94, R97: words written out from the spec decode to the commands they stand for. -/
def Obligations.SpecWordsDecode : Prop := ∀ x ∈ specWords, decode x.1 = .ok x.2

/-- R95: a word that R94 does not list raises `ILL`, as an issued word and as the value of a host write to `CMD`.
(`resp` is the model's own record of what the transaction returned; what it is after a write is left open.) -/
def Obligations.UnlistedWordRaisesIll : Prop :=
  (∀ (s : State) (w : Word), s.stage ≠ 31#5 → ¬ CommandWord w → issue w s = .next (afterFault s 4#3)) ∧
  ∀ (s : State) (w : Nat), s.stage ≠ 31#5 → w < 2 ^ 32 → ¬ CommandWord (BitVec.ofNat 32 w) →
    ∃ r, perform (.write 0 0 w) s = .next { afterFault s 4#3 with resp := r }

/-! ## The step -/

/-- R72, R90, R92: a step with a command word pending runs the command that the word decodes to, on the state without
that transaction (the pending list, the draw counter and the record of the answer are the model's own, log 1, 3 and 4). -/
def Obligations.StepRunsDecodedCommand : Prop :=
  ∀ (s : State) (w : Nat) (rest : List HostOp) (i : Instr),
    s.host = .write 0 0 w :: rest → w < 2 ^ 32 → s.stage ≠ 31#5 → decode (BitVec.ofNat 32 w) = .ok i →
    step s = exec i { s with host := rest, draws := s.draws + 1, resp := none }

/-- R70, R272: a step performs the next pending transaction and leaves the others pending; with none it changes nothing
(the pending list and the counter are the model's own, log 1, 2 and 4). -/
def Obligations.StepPerformsNextTransaction : Prop :=
  (∀ (s : State) (op : HostOp) (rest : List HostOp),
    s.host = op :: rest → step s = perform op { s with host := rest, draws := s.draws + 1 }) ∧
  ∀ s : State, s.host = [] → step s = .next s

/-- R282: every transaction in every state has an outcome, and it is a next state: no step stops the machine (log 12). -/
def Obligations.EveryStepAnswersNextState : Prop := ∀ s : State, ∃ t, step s = .next t

/-! ## Control commands, reset, `STATUS` -/

/-- R114, R247: `NOP` completes and changes nothing, in stages 0 to 17 and in stage 31. -/
def Obligations.NopChangesNothing : Prop := ∀ s : State, s.LegalStage → exec .nop s = .next s

/-- R44: the state after reset, written out; a reset gives it, and `CLR` in every stage of R29 gives it identically.
That the pending transactions and the draw counter outlast both is the model's choice of log 11; `resp`, the model's own
record of what the transaction returned, is left open here. -/
def Obligations.ResetAndClrGiveResetValues : Prop :=
  State.reset = resetValues State.reset ∧
  State.reset.status = 0#32 ∧
  (∀ s : State, ∃ r, perform .reset s = .next { resetValues s with resp := r }) ∧
  ∀ s : State, s.LegalStage → exec .clr s = .next (resetValues s)

/-- R22: every field of `STATUS`, and a read of it in any stage returns it and changes nothing else; it is read-only, so a
host write to it is the fault `ACC`, or nothing in stage 31; `ERRC` is 0 exactly when no fault is latched. -/
def Obligations.StatusIsViewOfStageAndCode : Prop :=
  ∀ s : State,
    s.status.toNat = s.stage.toNat + 2 ^ 8 * s.errc.toNat + (if s.stage = 17#5 then 2 ^ 11 else 0) +
      (if s.stage = 31#5 then 2 ^ 12 else 0) ∧
    perform (.read 0 1) s = .next { s with resp := some s.status } ∧
    (∀ v, ∃ r, perform (.write 0 1 v) s = .next { (if s.stage = 31#5 then s else afterFault s 5#3) with resp := r }) ∧
    (s.Sound → (s.errc = 0#3 ↔ s.stage ≠ 31#5))

/-! ## Arithmetic commands -/

/-- R146, R147: the field commands complete in stages 0 to 17 and write `P`, and nothing else. -/
def Obligations.FieldCommandsWriteOnlyP : Prop :=
  ∀ (s : State) (a b : Byte), s.stage.toNat ≤ 17 →
    exec (.gfmul a b) s = .next { s with p := some (gfmul a b) } ∧
    exec (.gfadd a b) s = .next { s with p := some (a ^^^ b) }

/-- R152: `GENP` completes in stage 0 with a degree of at most 30: `GEN` holds the coefficients of the generator and
nothing else, `GDEG` its degree. -/
def Obligations.GenpLoadsGenerator : Prop :=
  ∀ (s : State) (a : Byte), s.stage = 0#5 → a.toNat ≤ 30 →
    (genpoly a.toNat).length = a.toNat + 1 ∧
    exec (.genp a) s =
      .next { s with gen := Memory.number 0 (genpoly a.toNat), gdeg := some (BitVec.ofNat 5 a.toNat) }

/-- R153: `PMULL` completes in stage 0 on a polynomial of degree at most 29 in `GEN`, with the coefficients that the
rule writes out; every other element of `GEN` and everything else is unchanged. -/
def Obligations.PmullMultipliesByLinearFactor : Prop :=
  ∀ (s : State) (a : Byte) (d : Nat), s.stage = 0#5 → d ≤ 29 → s.gdeg = some (BitVec.ofNat 5 d) →
    s.gen.holdsBelow (d + 1) = true →
    ∃ t, exec (.pmull a) s = .next t ∧
      t = { s with gen := t.gen, gdeg := some (BitVec.ofNat 5 (d + 1)) } ∧
      t.gen.read 0 = s.gen.read 0 ∧
      (∀ j x y, 1 ≤ j → j ≤ d → s.gen.read j = some x → s.gen.read (j - 1) = some y →
        t.gen.read j = some (x ^^^ gfmul y (expValue a.toNat))) ∧
      (∀ y, s.gen.read d = some y → t.gen.read (d + 1) = some (gfmul y (expValue a.toNat))) ∧
      ∀ j, d + 2 ≤ j → t.gen.read j = s.gen.read j

/-- R96, R152, R153: in stage 0, a degree above 30 and a full `GEN` raise `ILL`, and `PMULL` with nothing in `GDEG` raises
`UNINIT`; out of stage 0 the stage is what counts, and the fault is `SEQ`. -/
def Obligations.PolynomialCommandsFault : Prop :=
  (∀ (s : State) (a : Byte), s.stage = 0#5 → 30 < a.toNat → exec (.genp a) s = .next (afterFault s 4#3)) ∧
  (∀ (s : State) (a : Byte), s.stage = 0#5 → s.gdeg = none → exec (.pmull a) s = .next (afterFault s 6#3)) ∧
  (∀ (s : State) (a : Byte), s.stage = 0#5 → s.gdeg = some 30#5 → exec (.pmull a) s = .next (afterFault s 4#3)) ∧
  ∀ (s : State) (a : Byte), s.stage ≠ 0#5 → s.stage ≠ 31#5 →
    exec (.genp a) s = .next (afterFault s 3#3) ∧ exec (.pmull a) s = .next (afterFault s 3#3)

/-- R153: `GENP n` equals `GENP 0` followed by `PMULL 0`, ..., `PMULL n-1`. -/
def Obligations.GenpEqualsRepeatedPmull : Prop :=
  ∀ (s : State) (n : Nat), s.stage = 0#5 → n ≤ 30 →
    exec (.genp (BitVec.ofNat 8 n)) s =
      runAll (.genp 0#8 :: (List.range n).map (fun i => .pmull (BitVec.ofNat 8 i))) s

/-! ## The field and its polynomials -/

/-- R140, R144: the table product is the product of polynomials modulo `x^8+x^4+x^3+x^2+1`. -/
def Obligations.GfmulIsPolynomialProduct : Prop := ∀ a b : Byte, gfmul a b = productMod a b

/-- R145 (a) to (f). -/
def Obligations.FieldLaws : Prop :=
  (∀ a b : Byte, gfmul a b = gfmul b a) ∧
  (∀ a : Byte, gfmul a 1#8 = a ∧ gfmul a 0#8 = 0#8) ∧
  (∀ a b c : Byte, gfmul (gfmul a b) c = gfmul a (gfmul b c)) ∧
  (∀ a b c : Byte, gfmul a (b ^^^ c) = gfmul a b ^^^ gfmul a c) ∧
  (∀ a : Byte, a ≠ 0#8 → gfmul a (expValue (255 - logValue a.toNat)) = 1#8) ∧
  (∀ a b : Byte, gfmul a b = 0#8 → a = 0#8 ∨ b = 0#8) ∧
  ∀ a : Byte, gfmul 2#8 a = if a.toNat < 128 then a <<< 1 else (a <<< 1) ^^^ 0x1D#8

/-- R141: the ROM contents are those of the construction: 1 first, then one shift and reduction each, mirrored from 255
on; `LOG` inverts the first period, and `LOG[0]` is never written. -/
def Obligations.TablesFollowConstruction : Prop :=
  romExp 0 = some 1#8 ∧
  (∀ i, i < 254 → ∃ x, romExp i = some x ∧
    romExp (i + 1) = some (BitVec.ofNat 8 (if 256 ≤ 2 * x.toNat then (2 * x.toNat) ^^^ 0x11D else 2 * x.toNat))) ∧
  (∀ i, 255 ≤ i → i ≤ 510 → romExp i = romExp (i - 255)) ∧
  (∀ i, 510 < i → romExp i = none) ∧
  (∀ i, i ≤ 254 → ∃ x, romExp i = some x ∧ romLog x.toNat = some (BitVec.ofNat 8 i)) ∧
  (∀ a, 1 ≤ a → a ≤ 255 → ∃ i, i ≤ 254 ∧ romLog a = some (BitVec.ofNat 8 i) ∧ romExp i = some (BitVec.ofNat 8 a)) ∧
  romLog 0 = none

/-- R149: the coefficients of a product. -/
def Obligations.PmulIsConvolution : Prop :=
  ∀ p q : Poly, p ≠ [] → q ≠ [] →
    (pmul p q).length = p.length + q.length - 1 ∧
    ∀ k, k < p.length + q.length - 1 → (pmul p q)[k]? = some (productCoefficient p q k)

/-- R150, R151: a generator polynomial of degree at most 30 is monic, has no zero coefficient, and has the roots
alpha^0 to alpha^(n-1). -/
def Obligations.GeneratorRoots : Prop :=
  ∀ n, n ≤ 30 →
    (genpoly n).length = n + 1 ∧ (genpoly n).head? = some 1#8 ∧ (∀ c ∈ genpoly n, c ≠ 0#8) ∧
    ∀ i, i < n → evalAt (genpoly n) (expValue i) = 0#8

/-- R165: with its parity appended, any data is a multiple of the generator: each of alpha^0 .. alpha^(n-1) is a root. -/
def Obligations.ParityMakesMultipleOfGenerator : Prop :=
  ∀ (data : Poly) (n i : Nat), n ≤ 30 → i < n →
    (prem data (genpoly n)).length = n ∧ evalAt (data ++ prem data (genpoly n)) (expValue i) = 0#8

/-- R165: the map from data to parity is linear. -/
def Obligations.ParityIsLinear : Prop :=
  ∀ d e g : Poly, d.length = e.length → 2 ≤ g.length →
    prem (List.zipWith gfadd d e) g = List.zipWith gfadd (prem d g) (prem e g)

/-! ## The codeword pipeline -/

/-- R122, R123: `VSEL` completes for every length up to 253 and writes the five registers of the version that the length
selects. -/
def Obligations.VselSelectsVersionRow : Prop :=
  ∀ (s : State) (row : VersionRange) (l : Nat), row ∈ versionRanges → row.lo ≤ l → l ≤ row.hi →
    s.stage = 0#5 → s.len = some (BitVec.ofNat 16 l) →
    exec .vsel s =
      .next { s with
        stage := 1#5
        ver := some (BitVec.ofNat 4 row.ver)
        size := some (BitVec.ofNat 6 row.size)
        tot := some (BitVec.ofNat 9 row.tot)
        ec := some (BitVec.ofNat 5 row.ec)
        dat := some (BitVec.ofNat 9 row.dat) }

/-- R122, R242, R250: a length above 253 raises `OVF` in `VSEL` and inside `ENCODE`. -/
def Obligations.OverlongPayloadRaisesOvf : Prop :=
  ∀ (s : State) (l : Nat), 253 < l → l < 2 ^ 16 → s.stage = 0#5 → s.len = some (BitVec.ofNat 16 l) →
    exec .vsel s = .next (afterFault s 1#3) ∧ exec .encode s = .next (afterFault s 1#3)

/-- R126, R250: an unwritten payload byte raises `UNINIT` in `BSER` and inside `ENCODE`. -/
def Obligations.UnwrittenPayloadRaisesUninit : Prop :=
  ∀ (s : State) (l k : Nat), k < l → l ≤ 253 → s.len = some (BitVec.ofNat 16 l) → s.inp.read k = none →
    (s.stage = 1#5 → exec .bser s = .next (afterFault s 6#3)) ∧
    (s.stage = 0#5 → exec .encode s = .next (afterFault s 6#3))

/-- R125, R126, R127: `BSER` completes on a written payload; every bit of the stream is as R125 orders it, and nothing
else changes. -/
def Obligations.BserWritesBitStream : Prop :=
  ∀ (s : State) (v l : Nat), s.stage = 1#5 → v ≤ 10 → s.ver = some (BitVec.ofNat 4 v) → l ≤ 253 → PayloadHeld s l →
    ∃ t, exec .bser s = .next t ∧
      t = { s with stage := 2#5, bs := t.bs, blen := some (BitVec.ofNat 12 (8 * (if v ≤ 9 then l + 2 else l + 3))) } ∧
      (∀ k, k < 8 * (if v ≤ 9 then l + 2 else l + 3) → t.bs.read k = streamBit s v l k) ∧
      ∀ k, 8 * (if v ≤ 9 then l + 2 else l + 3) ≤ k → t.bs.read k = s.bs.read k

/-- R128, R129: `PACK` completes on a written stream; codeword `k` is bits 8k to 8k+7 with the earlier the more
significant, then the pads 0xEC, 0x11 up to `DAT`, and nothing else changes. -/
def Obligations.PackSlicesAndPads : Prop :=
  ∀ (s : State) (b m d : Nat), s.stage = 2#5 → b < 2 ^ 12 → s.blen = some (BitVec.ofNat 12 b) → m = b / 8 →
    d < 2 ^ 9 → s.dat = some (BitVec.ofNat 9 d) → s.bs.holdsBelow (8 * m) = true →
    ∃ t, exec .pack s = .next t ∧
      t = { s with stage := 3#5, cw := t.cw, ndc := some (BitVec.ofNat 9 (max m d)) } ∧
      (∀ k, k < m → ∃ x : Byte, t.cw.read k = some x ∧
        ∀ i, i < 8 → s.bs.read (8 * k + i) = some (x.extractLsb' (7 - i) 1)) ∧
      (∀ k, m ≤ k → k < d → t.cw.read k = some (if (k - m) % 2 = 0 then 0xEC#8 else 0x11#8)) ∧
      ∀ k, max m d ≤ k → t.cw.read k = s.cw.read k

/-- R161: `RSGEN` completes and loads the generator of degree `EC`, whatever `GEN` held. -/
def Obligations.RsgenLoadsGenerator : Prop :=
  ∀ (s : State) (e : Nat), s.stage = 3#5 → e ≤ 30 → s.ec = some (BitVec.ofNat 5 e) →
    exec .rsgen s =
      .next { s with stage := 4#5, gen := Memory.number 0 (genpoly e), gdeg := some (BitVec.ofNat 5 e) }

/-- R163, R164: `PREM` completes on written codewords and coefficients and leaves the remainder of their division in
`REM`, and nothing else there. -/
def Obligations.PremLeavesRemainder : Prop :=
  ∀ (s : State) (m e : Nat) (data gen : Poly), s.stage = 4#5 → m < 2 ^ 9 → s.ndc = some (BitVec.ofNat 9 m) →
    1 ≤ e → e ≤ 30 → s.ec = some (BitVec.ofNat 5 e) →
    data.length = m → (∀ k, k < m → s.cw.read k = data[k]?) →
    gen.length = e + 1 → (∀ k, k < e + 1 → s.gen.read k = gen[k]?) →
    exec .prem s = .next { s with stage := 5#5, rem := Memory.number 0 (prem data gen) }

/-- R166: `CAT` completes on a written remainder and appends it to the data codewords; nothing else changes. -/
def Obligations.CatAppendsParity : Prop :=
  ∀ (s : State) (m e : Nat), s.stage = 5#5 → m + e < 2 ^ 9 → s.ndc = some (BitVec.ofNat 9 m) →
    e ≤ 30 → s.ec = some (BitVec.ofNat 5 e) → s.rem.holdsBelow e = true →
    ∃ t, exec .cat s = .next t ∧
      t = { s with stage := 6#5, cw := t.cw, nac := some (BitVec.ofNat 9 (m + e)) } ∧
      (∀ i, i < e → t.cw.read (m + i) = s.rem.read i) ∧
      ∀ k, k < m ∨ m + e ≤ k → t.cw.read k = s.cw.read k

/-! ## The matrix pipeline -/

/-- R181: `MCLR` completes: both grids are 0 in every cell and hold nothing beyond. -/
def Obligations.MclrBlanksBothGrids : Prop :=
  ∀ (s : State) (n : Nat), s.stage = 6#5 → n < 2 ^ 6 → s.size = some (BitVec.ofNat 6 n) →
    exec .mclr s =
      .next { s with
        stage := 7#5
        val := Memory.number 0 (List.replicate (n * n) 0#1)
        rsv := Memory.number 0 (List.replicate (n * n) 0#1) }

/-- R182 to R184: `PFIND` completes and draws and reserves the three finder patterns with their separators. -/
def Obligations.PfindDrawsFinders : Prop :=
  ∀ (s : State) (v : Nat), s.stage = 7#5 → SizedFor s v →
    ∃ t, exec .pfind s = .next t ∧ t = { s with stage := 8#5, val := t.val, rsv := t.rsv } ∧
      Painted (4 * v + 17) s.val t.val (finderPaint (4 * v + 17)) ∧
      Painted (4 * v + 17) s.rsv t.rsv (flagged (finderPaint (4 * v + 17)))

/-- R185, R186: `PTIME` completes and draws and reserves the timing patterns. -/
def Obligations.PtimeDrawsTiming : Prop :=
  ∀ (s : State) (v : Nat), s.stage = 8#5 → SizedFor s v →
    ∃ t, exec .ptime s = .next t ∧ t = { s with stage := 9#5, val := t.val, rsv := t.rsv } ∧
      Painted (4 * v + 17) s.val t.val (timingPaint (4 * v + 17)) ∧
      Painted (4 * v + 17) s.rsv t.rsv (flagged (timingPaint (4 * v + 17)))

/-- R187, R188: `PDARK` completes and draws and reserves the dark module. -/
def Obligations.PdarkDrawsDarkModule : Prop :=
  ∀ (s : State) (v : Nat), s.stage = 9#5 → SizedFor s v →
    ∃ t, exec .pdark s = .next t ∧ t = { s with stage := 10#5, val := t.val, rsv := t.rsv } ∧
      Painted (4 * v + 17) s.val t.val (darkPaint v) ∧
      Painted (4 * v + 17) s.rsv t.rsv (flagged (darkPaint v))

/-- R189 to R191: `PALIGN` completes. Where, of the candidate centres, exactly those in row or column 6 are reserved (as
`PFIND` and `PTIME` leave them), the patterns stamped and reserved are those of R190's table. -/
def Obligations.PalignStampsFreeCentres : Prop :=
  ∀ (s : State) (v : Nat), s.stage = 10#5 → SizedFor s v →
    (∀ r ∈ coordinates v, ∀ c ∈ coordinates v,
      s.rsv.read (r * (4 * v + 17) + c) = some (if r = 6 ∨ c = 6 then 1#1 else 0#1)) →
    ∃ t, exec .palign s = .next t ∧ t = { s with stage := 11#5, val := t.val, rsv := t.rsv } ∧
      Painted (4 * v + 17) s.val t.val (alignmentPaint v) ∧
      Painted (4 * v + 17) s.rsv t.rsv (flagged (alignmentPaint v))

/-- R191: whatever is reserved, a candidate whose centre is reserved when `PALIGN` starts is not stamped: with every
candidate reserved the command completes and only the stage changes. -/
def Obligations.PalignSkipsReservedCentres : Prop :=
  ∀ (s : State) (v : Nat), s.stage = 10#5 → SizedFor s v →
    (∀ r ∈ coordinates v, ∀ c ∈ coordinates v, s.rsv.read (r * (4 * v + 17) + c) = some 1#1) →
    exec .palign s = .next { s with stage := 11#5 }

/-- R192 to R195: `RFMT` completes and reserves the two format runs; no value is written. -/
def Obligations.RfmtReservesFormatRuns : Prop :=
  ∀ (s : State) (v : Nat), s.stage = 11#5 → SizedFor s v →
    ∃ t, exec .rfmt s = .next t ∧ t = { s with stage := 12#5, rsv := t.rsv } ∧
      Painted (4 * v + 17) s.rsv t.rsv (flagged (formatPaint (4 * v + 17)))

/-- R196, R197: `RVER` completes and reserves the two version blocks from version 7 on; no value is written. -/
def Obligations.RverReservesVersionBlocks : Prop :=
  ∀ (s : State) (v : Nat), s.stage = 12#5 → SizedFor s v →
    ∃ t, exec .rver s = .next t ∧ t = { s with stage := 13#5, rsv := t.rsv } ∧
      Painted (4 * v + 17) s.rsv t.rsv (flagged (versionPaint v))

/-- R210, R211, R213: `ZPLACE` completes: the `j`-th free cell of the scan order takes bit `j` of the codewords while
there are bits, `NPL` counts them, and no other element changes. -/
def Obligations.ZplacePlacesBitsInScanOrder : Prop :=
  ∀ (s : State) (v m : Nat), s.stage = 13#5 → SizedFor s v → m < 2 ^ 9 → s.nac = some (BitVec.ofNat 9 m) →
    s.cw.holdsBelow m = true → s.rsv.holdsBelow ((4 * v + 17) * (4 * v + 17)) = true →
    ∃ t, exec .zplace s = .next t ∧
      t = { s with
        stage := 14#5, val := t.val
        npl := some (BitVec.ofNat 12 (min (freeOrder (4 * v + 17) s.rsv).length (8 * m))) } ∧
      (∀ j x, j < 8 * m → (freeOrder (4 * v + 17) s.rsv)[j]? = some x →
        t.val.read (x.1 * (4 * v + 17) + x.2) = dataBit s j) ∧
      ∀ k, (∀ j x, j < 8 * m → (freeOrder (4 * v + 17) s.rsv)[j]? = some x → x.1 * (4 * v + 17) + x.2 ≠ k) →
        t.val.read k = s.val.read k

/-- R212, R214, R215: the column pairs of every size and their directions; the cells of one pair, element by element; the
scan order is the pairs' cells one pair after another, less those that are not free; and where column 6 is reserved, each
cell that is free stands in the scan order exactly once and no other cell does. -/
def Obligations.ScanOrderVisitsFreeCellsOnce : Prop :=
  (∀ v, columnPairs (4 * v + 17) (4 * v + 16) true = scanPairs v) ∧
  (∀ (n right : Nat) (upward : Bool),
    (pairCells n (right, upward)).length = 2 * n ∧
    ∀ k, k < 2 * n → (pairCells n (right, upward))[k]? = some (scanCell n right upward k)) ∧
  (∀ (v : Nat) (free : Cell → Bool),
    zigzagOrder (4 * v + 17) free =
      ((scanPairs v).flatMap (fun x =>
        (List.range (2 * (4 * v + 17))).map (scanCell (4 * v + 17) x.1 x.2))).filter free) ∧
  ∀ (v : Nat) (free : Cell → Bool), (∀ r, free (r, 6) = false) →
    (zigzagOrder (4 * v + 17) free).Nodup ∧
    ∀ r c, (r, c) ∈ zigzagOrder (4 * v + 17) free ↔ r < 4 * v + 17 ∧ c < 4 * v + 17 ∧ free (r, c) = true

/-- R225, R226: `MASK` completes and inverts the value of exactly the cells that are not reserved and have an even sum of
row and column. -/
def Obligations.MaskInvertsFreeEvenCells : Prop :=
  ∀ (s : State) (v : Nat), s.stage = 14#5 → SizedFor s v →
    s.rsv.holdsBelow ((4 * v + 17) * (4 * v + 17)) = true → s.val.holdsBelow ((4 * v + 17) * (4 * v + 17)) = true →
    ∃ t, exec .mask s = .next t ∧ t = { s with stage := 15#5, val := t.val } ∧
      Painted (4 * v + 17) s.val t.val (fun r c =>
        if s.rsv.read (r * (4 * v + 17) + c) = some 0#1 ∧ (r + c) % 2 = 0 then
          (s.val.read (r * (4 * v + 17) + c)).map (fun b => b ^^^ 1#1)
        else none)

/-- R230, R231: `WFMT` completes and writes the format literal, least significant bit at position 0, into both runs; the
flags are unchanged (`INFO_BIT_ORDER` = `lsb_first`, R8, log 6). -/
def Obligations.WfmtWritesFormatLiteral : Prop :=
  ∀ (s : State) (v : Nat), s.stage = 15#5 → SizedFor s v →
    ∃ t, exec .wfmt s = .next t ∧ t = { s with stage := 16#5, val := t.val } ∧
      Painted (4 * v + 17) s.val t.val (formatPaint (4 * v + 17))

/-- R232, R233: `WVER` completes and writes the version literal into both blocks from version 7 on (`INFO_BIT_ORDER` =
`lsb_first`, R8, log 6). -/
def Obligations.WverWritesVersionLiteral : Prop :=
  ∀ (s : State) (v : Nat), s.stage = 16#5 → SizedFor s v →
    ∃ t, exec .wver s = .next t ∧ t = { s with stage := 17#5, val := t.val } ∧
      Painted (4 * v + 17) s.val t.val (versionPaint v)

/-! ## The whole encode -/

/-- R116: `ENCODE` completes for every written payload of at most 253 bytes: stage 17, the registers of the version and
of the counts, a value in every cell; the payload, `P` and the fault code are unchanged. -/
def Obligations.EncodeCompletesForAcceptedPayload : Prop :=
  ∀ (s : State) (row : VersionRange) (l m : Nat), row ∈ versionRanges → row.lo ≤ l → l ≤ row.hi →
    m = (if row.ver ≤ 9 then l + 2 else l + 3) → s.stage = 0#5 → PayloadHeld s l →
    ∃ t, exec .encode s = .next t ∧
      t = { s with
        stage := 17#5
        ver := some (BitVec.ofNat 4 row.ver)
        size := some (BitVec.ofNat 6 row.size)
        tot := some (BitVec.ofNat 9 row.tot)
        ec := some (BitVec.ofNat 5 row.ec)
        dat := some (BitVec.ofNat 9 row.dat)
        blen := some (BitVec.ofNat 12 (8 * m))
        ndc := some (BitVec.ofNat 9 (max m row.dat))
        nac := some (BitVec.ofNat 9 (max m row.dat + row.ec))
        gdeg := some (BitVec.ofNat 5 row.ec)
        npl := t.npl, bs := t.bs, cw := t.cw, gen := t.gen, rem := t.rem, val := t.val, rsv := t.rsv } ∧
      t.val.live = List.range (row.size * row.size) ∧ t.rsv.live = List.range (row.size * row.size)

/-- R116: the end state of `ENCODE` equals, element for element, that of the seventeen commands issued one by one, which
are `VSEL` and the pseudo-instructions of R98, also where a step faults and in every other stage. -/
def Obligations.EncodeEqualsSeventeenCommands : Prop :=
  ∀ s : State, exec .encode s = runAll Instr.pipeline s ∧
    exec .encode s =
      runAll (.vsel :: (Pseudo.expand .bytemode ++ Pseudo.expand .rsenc ++ Pseudo.expand .patterns ++
        Pseudo.expand .finish)) s

/-- R14, R13: the result of `ENCODE` depends on the declared length and the payload below it alone: on nothing an earlier
encode, an arithmetic command or a draw left. The result is what R118 lists. -/
def Obligations.EncodeDependsOnPayloadAlone : Prop :=
  ∀ (s₁ s₂ t₁ t₂ : State) (l : BitVec 16), s₁.stage = 0#5 → s₂.stage = 0#5 → s₁.len = some l → s₂.len = some l →
    (∀ k, k < l.toNat → s₁.inp.read k = s₂.inp.read k) →
    exec .encode s₁ = .next t₁ → exec .encode s₂ = .next t₂ →
    t₁.stage = t₂.stage ∧ (t₁.stage = 31#5 → t₁.errc = t₂.errc) ∧
    (t₁.stage = 17#5 →
      t₁.ver = t₂.ver ∧ t₁.size = t₂.size ∧ t₁.tot = t₂.tot ∧ t₁.ec = t₂.ec ∧ t₁.dat = t₂.dat ∧
      t₁.blen = t₂.blen ∧ t₁.ndc = t₂.ndc ∧ t₁.nac = t₂.nac ∧ t₁.npl = t₂.npl ∧ t₁.gdeg = t₂.gdeg ∧
      (∀ k n, t₁.nac = some n → k < n.toNat → t₁.cw.read k = t₂.cw.read k) ∧
      t₁.rem = t₂.rem ∧ t₁.gen = t₂.gen ∧ t₁.val = t₂.val ∧ t₁.rsv = t₂.rsv)

/-- R182, R187, R190, R231, R233: in every finished symbol the finder, separator, timing, dark, alignment, format and
version cells have the fixed values of its version, whatever the payload; and exactly they are reserved. The values of the
format and version cells are those of `INFO_BIT_ORDER` = `lsb_first` (R8, log 6). -/
def Obligations.FinishedSymbolHasFixedPatterns : Prop :=
  ∀ (s t : State), s.stage = 0#5 → exec .encode s = .next t → t.stage = 17#5 →
    ∃ v, SizedFor t v ∧
      ∀ r c, r < 4 * v + 17 → c < 4 * v + 17 →
        (∀ b, fixedPaint v r c = some b →
          t.val.read (r * (4 * v + 17) + c) = some b ∧ t.rsv.read (r * (4 * v + 17) + c) = some 1#1) ∧
        (fixedPaint v r c = none → t.rsv.read (r * (4 * v + 17) + c) = some 0#1)

/-- R213, R216, R217, R226: a finished symbol carries every bit of every codeword, masked, in scan order; `NPL` is
8*`NAC`; and the free cells after the last bit show the bare mask. -/
def Obligations.FinishedSymbolCarriesEveryCodeword : Prop :=
  ∀ (s t : State), s.stage = 0#5 → exec .encode s = .next t → t.stage = 17#5 →
    ∃ v m, SizedFor t v ∧ t.nac = some (BitVec.ofNat 9 m) ∧ m < 2 ^ 9 ∧ t.npl = some (BitVec.ofNat 12 (8 * m)) ∧
      8 * m ≤ (freeOrder (4 * v + 17) t.rsv).length ∧
      ∀ j x, (freeOrder (4 * v + 17) t.rsv)[j]? = some x →
        t.val.read (x.1 * (4 * v + 17) + x.2) =
          ((if j < 8 * m then dataBit t j else some 0#1).map
            (fun b => b ^^^ (if (x.1 + x.2) % 2 = 0 then 1#1 else 0#1)))

/-- R198, R215, R226 (e): of a finished symbol of each version, the number of cells that are not reserved, and how many of
them the mask inverts. -/
def Obligations.FinishedSymbolFreeCellCounts : Prop :=
  ∀ (s t : State), s.stage = 0#5 → exec .encode s = .next t → t.stage = 17#5 →
    ∃ v, SizedFor t v ∧
      (freeOrder (4 * v + 17) t.rsv).length = [208, 359, 567, 807, 1079, 1383, 1608, 1976, 2376, 2808].getD (v - 1) 0 ∧
      ((freeOrder (4 * v + 17) t.rsv).filter (fun x => (x.1 + x.2) % 2 == 0)).length =
        [104, 179, 283, 403, 539, 691, 802, 986, 1186, 1402].getD (v - 1) 0

/-! ## Faults and stages -/

/-- R112: a command in a stage that does not accept it raises `SEQ` and does nothing else; in a stage that accepts it,
it leaves the stage of the table, or 31 where it is one that can fault; in stage 31 `NOP` has no effect and `CLR` leaves
stage 0. That the stages 18 to 30, which no rule produces, accept no command, `CLR` included, is the model's choice of
log 10. -/
def Obligations.StagesAcceptCommandsAsTabled : Prop :=
  (∀ (i : Instr) (s : State), s.stage ≠ 31#5 → s.stage.toNat ∉ acceptedStages i →
    exec i s = .next (afterFault s 3#3)) ∧
  (∀ (i : Instr) (s t : State), s.stage.toNat ∈ acceptedStages i → exec i s = .next t →
    t.stage.toNat = stageAfter i s.stage.toNat ∨ (t.stage = 31#5 ∧ canFault i = true)) ∧
  ∀ (s t : State), s.stage = 31#5 → exec .nop s = .next s ∧ (exec .clr s = .next t → t.stage = 0#5)

/-- R247: in stage 31 only the word 0x01000000 acts, also as a host write to `CMD`; host writes to anything else change
nothing; a read returns `STATUS` as the rule writes it, a ROM element as it stands, and changes no state. That `exec`
itself leaves the state for every command but `CLR` is the model's choice of log 16, and that the pending transactions and
the draw counter outlast a `CLR` that of log 11. (`resp` is the model's own record of
what the transaction returned; what it is after a write is left open.) -/
def Obligations.ErrStageHoldsUntilClr : Prop :=
  ∀ s : State, s.stage = 31#5 →
    (∀ i : Instr, i ≠ .clr → exec i s = .next s) ∧
    issue 0x01000000#32 s = .next (resetValues s) ∧
    (∀ w : Word, w ≠ 0x01000000#32 → issue w s = .next s) ∧
    (∃ r, perform (.write 0 0 0x01000000) s = .next { resetValues s with resp := r }) ∧
    (∀ w, w < 2 ^ 32 → w ≠ 0x01000000 → ∃ r, perform (.write 0 0 w) s = .next { s with resp := r }) ∧
    (∀ space idx v, ¬ (space = 0 ∧ idx = 0) → ∃ r, perform (.write space idx v) s = .next { s with resp := r }) ∧
    (∀ space idx, ∃ d, perform (.read space idx) s = .next { s with resp := some d } ∧
      (space = 0 ∧ idx = 1 → d = 0x0000101F#32 ||| (s.errc.setWidth 32 <<< 8)) ∧
      (8 ≤ space → ∀ x, content s space idx = some x → d.toNat = x))

/-- R249, R110, R245: a command that faults leaves exactly the fault entry, with one of the codes a command can raise,
and none of its own writes. -/
def Obligations.FaultingCommandWritesNothingElse : Prop :=
  ∀ (i : Instr) (s t : State), exec i s = .next t → s.stage ≠ 31#5 → t.stage = 31#5 →
    t = afterFault s t.errc ∧ (t.errc = 1#3 ∨ t.errc = 3#3 ∨ t.errc = 4#3 ∨ t.errc = 6#3)

/-- R21, R68: a command that does not fault writes only the registers and spaces that the tables give it; the model's
own fields are never touched by a command. -/
def Obligations.CommandsWriteOnlyTheirRegisters : Prop :=
  ∀ (i : Instr) (s t : State), exec i s = .next t →
    (t.host = s.host ∧ t.resp = s.resp ∧ t.draws = s.draws) ∧
    (t.stage ≠ 31#5 → i ≠ .clr →
      (t.errc = s.errc ∧ t.len = s.len ∧ t.inp = s.inp) ∧
      ((∀ a b, i ≠ .gfmul a b ∧ i ≠ .gfadd a b) → t.p = s.p) ∧
      (i ≠ .vsel → i ≠ .encode →
        t.ver = s.ver ∧ t.size = s.size ∧ t.tot = s.tot ∧ t.ec = s.ec ∧ t.dat = s.dat) ∧
      (i ≠ .bser → i ≠ .encode → t.blen = s.blen ∧ t.bs = s.bs) ∧
      (i ≠ .pack → i ≠ .encode → t.ndc = s.ndc) ∧
      (i ≠ .cat → i ≠ .encode → t.nac = s.nac) ∧
      (i ≠ .pack → i ≠ .cat → i ≠ .encode → t.cw = s.cw) ∧
      ((∀ a, i ≠ .genp a ∧ i ≠ .pmull a) → i ≠ .rsgen → i ≠ .encode → t.gdeg = s.gdeg ∧ t.gen = s.gen) ∧
      (i ≠ .prem → i ≠ .encode → t.rem = s.rem) ∧
      (i ≠ .zplace → i ≠ .encode → t.npl = s.npl) ∧
      (i ∉ [.encode, .mclr, .pfind, .ptime, .pdark, .palign, .zplace, .mask, .wfmt, .wver] → t.val = s.val) ∧
      (i ∉ [.encode, .mclr, .pfind, .ptime, .pdark, .palign, .rfmt, .rver] → t.rsv = s.rsv))

/-- R180: no command but `MCLR` (and `CLR`, `ENCODE`, a fault, which discard the grids) writes a 0 into `RSV`. -/
def Obligations.ReservationIsPermanent : Prop :=
  ∀ (i : Instr) (s t : State) (k : Nat), i ∉ [Instr.clr, .mclr, .encode] → exec i s = .next t → t.stage ≠ 31#5 →
    s.rsv.read k = some 1#1 → t.rsv.read k = some 1#1

/-- R36, R226: a reserved cell is never touched by data placement or masking. -/
def Obligations.PlacementAndMaskKeepReservedCells : Prop :=
  ∀ (i : Instr) (s t : State) (k : Nat), i = .zplace ∨ i = .mask → exec i s = .next t → t.stage ≠ 31#5 →
    s.rsv.read k = some 1#1 → t.val.read k = s.val.read k

/-! ## Host accesses -/

/-- R63: an illegal access is the fault `ACC`, a read returning some value and a write writing nothing; in stage 31 it
changes nothing. (`resp` is the model's own record of what the transaction returned; what it is after a write is left
open.) -/
def Obligations.IllegalAccessRaisesAcc : Prop :=
  (∀ (s : State) (space idx : Nat), IllegalRead space idx →
    ∃ d, perform (.read space idx) s =
      .next { (if s.stage = 31#5 then s else afterFault s 5#3) with resp := some d }) ∧
  ∀ (s : State) (space idx v : Nat), IllegalWrite s space idx v →
    ∃ r, perform (.write space idx v) s =
      .next { (if s.stage = 31#5 then s else afterFault s 5#3) with resp := r }

/-- R61, R64: a legal read completes in every stage and returns a value of the element's width, which is the element's
content where it holds a value; nothing else changes but the record of the answer, the model's own (log 3). R40 to R42: what
a read of each element of `VTAB`, `ATAB` and `INFO` returns (`V10_MAX_BYTES` = 253, log 6). -/
def Obligations.LegalReadReturnsContent : Prop :=
  (∀ (s : State) (space idx : Nat), ¬ IllegalRead space idx →
    ∃ d, perform (.read space idx) s = .next { s with resp := some d } ∧
      d.toNat < 2 ^ widthOf space idx ∧
      ∀ x, content s space idx = some x → d.toNat = x) ∧
  (∀ (s : State) (v f x : Nat), vtabContent v f = some x →
    perform (.read 10 ((v - 1) * 4 + f)) s = .next { s with resp := some (BitVec.ofNat 32 x) }) ∧
  (∀ (s : State) (v j x : Nat), atabContent v j = some x →
    perform (.read 11 ((v - 1) * 4 + j)) s = .next { s with resp := some (BitVec.ofNat 32 x) }) ∧
  ∀ (s : State) (i x : Nat), infoContent i = some x →
    perform (.read 12 i) s = .next { s with resp := some (BitVec.ofNat 32 x) }

/-- R62: at stage 0 a host write to `LEN` or `IN` that fits writes that element and nothing else. -/
def Obligations.HostWritesPayload : Prop :=
  (∀ (s : State) (v : Nat), s.stage = 0#5 → v < 2 ^ 16 →
    ∃ r, perform (.write 0 2 v) s = .next { s with len := some (BitVec.ofNat 16 v), resp := r }) ∧
  ∀ (s : State) (k v : Nat), s.stage = 0#5 → k < 512 → v < 2 ^ 8 →
    ∃ t, perform (.write 1 k v) s = .next t ∧ t = { s with inp := t.inp, resp := t.resp } ∧
      ∀ j, t.inp.read j = if j = k then some (BitVec.ofNat 8 v) else s.inp.read j

/-! ## Invariants -/

/-- R44: the state after reset meets the invariant. -/
def Obligations.ResetIsSound : Prop := State.reset.Sound

/-- R23, R29, R245, R281: every step keeps the invariant: the spaces stay canonical and inside their depths, the stage
and the fault code stay legal, nothing is left after a fault, and each stage of an encode holds exactly what the
commands before it wrote. -/
def Obligations.StepKeepsSound : Prop := ∀ s t : State, s.Sound → step s = .next t → t.Sound

/-- R23, R14: in a sound state no command reads an element that holds no value: what it leaves does not depend on any
draw (draws and their counter are the model's own, log 4). -/
def Obligations.CommandsNeverUseDraws : Prop :=
  ∀ (i : Instr) (s t : State) (n : Nat), s.Sound → exec i s = .next t →
    exec i { s with draws := n } = .next { t with draws := n }
end

