-- ==== Sys2Proof/Laws/State.lean ====
section
/-! SUPPORT. What each named update of the state leaves in each field: one lemma per field per update. -/

namespace Sys2Proof.Machine

/-! ### `State.setStage` -/

@[simp] theorem State.setStage_stage (s : State) (k : BitVec 5) : (s.setStage k).stage = k := rfl
@[simp] theorem State.setStage_errc (s : State) (k : BitVec 5) : (s.setStage k).errc = s.errc := rfl
@[simp] theorem State.setStage_len (s : State) (k : BitVec 5) : (s.setStage k).len = s.len := rfl
@[simp] theorem State.setStage_ver (s : State) (k : BitVec 5) : (s.setStage k).ver = s.ver := rfl
@[simp] theorem State.setStage_size (s : State) (k : BitVec 5) : (s.setStage k).size = s.size := rfl
@[simp] theorem State.setStage_tot (s : State) (k : BitVec 5) : (s.setStage k).tot = s.tot := rfl
@[simp] theorem State.setStage_ec (s : State) (k : BitVec 5) : (s.setStage k).ec = s.ec := rfl
@[simp] theorem State.setStage_dat (s : State) (k : BitVec 5) : (s.setStage k).dat = s.dat := rfl
@[simp] theorem State.setStage_blen (s : State) (k : BitVec 5) : (s.setStage k).blen = s.blen := rfl
@[simp] theorem State.setStage_ndc (s : State) (k : BitVec 5) : (s.setStage k).ndc = s.ndc := rfl
@[simp] theorem State.setStage_nac (s : State) (k : BitVec 5) : (s.setStage k).nac = s.nac := rfl
@[simp] theorem State.setStage_gdeg (s : State) (k : BitVec 5) : (s.setStage k).gdeg = s.gdeg := rfl
@[simp] theorem State.setStage_p (s : State) (k : BitVec 5) : (s.setStage k).p = s.p := rfl
@[simp] theorem State.setStage_npl (s : State) (k : BitVec 5) : (s.setStage k).npl = s.npl := rfl
@[simp] theorem State.setStage_inp (s : State) (k : BitVec 5) : (s.setStage k).inp = s.inp := rfl
@[simp] theorem State.setStage_bs (s : State) (k : BitVec 5) : (s.setStage k).bs = s.bs := rfl
@[simp] theorem State.setStage_cw (s : State) (k : BitVec 5) : (s.setStage k).cw = s.cw := rfl
@[simp] theorem State.setStage_gen (s : State) (k : BitVec 5) : (s.setStage k).gen = s.gen := rfl
@[simp] theorem State.setStage_rem (s : State) (k : BitVec 5) : (s.setStage k).rem = s.rem := rfl
@[simp] theorem State.setStage_val (s : State) (k : BitVec 5) : (s.setStage k).val = s.val := rfl
@[simp] theorem State.setStage_rsv (s : State) (k : BitVec 5) : (s.setStage k).rsv = s.rsv := rfl
@[simp] theorem State.setStage_host (s : State) (k : BitVec 5) : (s.setStage k).host = s.host := rfl
@[simp] theorem State.setStage_resp (s : State) (k : BitVec 5) : (s.setStage k).resp = s.resp := rfl
@[simp] theorem State.setStage_draws (s : State) (k : BitVec 5) : (s.setStage k).draws = s.draws := rfl

/-! ### `State.setLen` -/

@[simp] theorem State.setLen_stage (s : State) (v : BitVec 16) : (s.setLen v).stage = s.stage := rfl
@[simp] theorem State.setLen_errc (s : State) (v : BitVec 16) : (s.setLen v).errc = s.errc := rfl
@[simp] theorem State.setLen_len (s : State) (v : BitVec 16) : (s.setLen v).len = some v := rfl
@[simp] theorem State.setLen_ver (s : State) (v : BitVec 16) : (s.setLen v).ver = s.ver := rfl
@[simp] theorem State.setLen_size (s : State) (v : BitVec 16) : (s.setLen v).size = s.size := rfl
@[simp] theorem State.setLen_tot (s : State) (v : BitVec 16) : (s.setLen v).tot = s.tot := rfl
@[simp] theorem State.setLen_ec (s : State) (v : BitVec 16) : (s.setLen v).ec = s.ec := rfl
@[simp] theorem State.setLen_dat (s : State) (v : BitVec 16) : (s.setLen v).dat = s.dat := rfl
@[simp] theorem State.setLen_blen (s : State) (v : BitVec 16) : (s.setLen v).blen = s.blen := rfl
@[simp] theorem State.setLen_ndc (s : State) (v : BitVec 16) : (s.setLen v).ndc = s.ndc := rfl
@[simp] theorem State.setLen_nac (s : State) (v : BitVec 16) : (s.setLen v).nac = s.nac := rfl
@[simp] theorem State.setLen_gdeg (s : State) (v : BitVec 16) : (s.setLen v).gdeg = s.gdeg := rfl
@[simp] theorem State.setLen_p (s : State) (v : BitVec 16) : (s.setLen v).p = s.p := rfl
@[simp] theorem State.setLen_npl (s : State) (v : BitVec 16) : (s.setLen v).npl = s.npl := rfl
@[simp] theorem State.setLen_inp (s : State) (v : BitVec 16) : (s.setLen v).inp = s.inp := rfl
@[simp] theorem State.setLen_bs (s : State) (v : BitVec 16) : (s.setLen v).bs = s.bs := rfl
@[simp] theorem State.setLen_cw (s : State) (v : BitVec 16) : (s.setLen v).cw = s.cw := rfl
@[simp] theorem State.setLen_gen (s : State) (v : BitVec 16) : (s.setLen v).gen = s.gen := rfl
@[simp] theorem State.setLen_rem (s : State) (v : BitVec 16) : (s.setLen v).rem = s.rem := rfl
@[simp] theorem State.setLen_val (s : State) (v : BitVec 16) : (s.setLen v).val = s.val := rfl
@[simp] theorem State.setLen_rsv (s : State) (v : BitVec 16) : (s.setLen v).rsv = s.rsv := rfl
@[simp] theorem State.setLen_host (s : State) (v : BitVec 16) : (s.setLen v).host = s.host := rfl
@[simp] theorem State.setLen_resp (s : State) (v : BitVec 16) : (s.setLen v).resp = s.resp := rfl
@[simp] theorem State.setLen_draws (s : State) (v : BitVec 16) : (s.setLen v).draws = s.draws := rfl

/-! ### `State.setP` -/

@[simp] theorem State.setP_stage (s : State) (v : Byte) : (s.setP v).stage = s.stage := rfl
@[simp] theorem State.setP_errc (s : State) (v : Byte) : (s.setP v).errc = s.errc := rfl
@[simp] theorem State.setP_len (s : State) (v : Byte) : (s.setP v).len = s.len := rfl
@[simp] theorem State.setP_ver (s : State) (v : Byte) : (s.setP v).ver = s.ver := rfl
@[simp] theorem State.setP_size (s : State) (v : Byte) : (s.setP v).size = s.size := rfl
@[simp] theorem State.setP_tot (s : State) (v : Byte) : (s.setP v).tot = s.tot := rfl
@[simp] theorem State.setP_ec (s : State) (v : Byte) : (s.setP v).ec = s.ec := rfl
@[simp] theorem State.setP_dat (s : State) (v : Byte) : (s.setP v).dat = s.dat := rfl
@[simp] theorem State.setP_blen (s : State) (v : Byte) : (s.setP v).blen = s.blen := rfl
@[simp] theorem State.setP_ndc (s : State) (v : Byte) : (s.setP v).ndc = s.ndc := rfl
@[simp] theorem State.setP_nac (s : State) (v : Byte) : (s.setP v).nac = s.nac := rfl
@[simp] theorem State.setP_gdeg (s : State) (v : Byte) : (s.setP v).gdeg = s.gdeg := rfl
@[simp] theorem State.setP_p (s : State) (v : Byte) : (s.setP v).p = some v := rfl
@[simp] theorem State.setP_npl (s : State) (v : Byte) : (s.setP v).npl = s.npl := rfl
@[simp] theorem State.setP_inp (s : State) (v : Byte) : (s.setP v).inp = s.inp := rfl
@[simp] theorem State.setP_bs (s : State) (v : Byte) : (s.setP v).bs = s.bs := rfl
@[simp] theorem State.setP_cw (s : State) (v : Byte) : (s.setP v).cw = s.cw := rfl
@[simp] theorem State.setP_gen (s : State) (v : Byte) : (s.setP v).gen = s.gen := rfl
@[simp] theorem State.setP_rem (s : State) (v : Byte) : (s.setP v).rem = s.rem := rfl
@[simp] theorem State.setP_val (s : State) (v : Byte) : (s.setP v).val = s.val := rfl
@[simp] theorem State.setP_rsv (s : State) (v : Byte) : (s.setP v).rsv = s.rsv := rfl
@[simp] theorem State.setP_host (s : State) (v : Byte) : (s.setP v).host = s.host := rfl
@[simp] theorem State.setP_resp (s : State) (v : Byte) : (s.setP v).resp = s.resp := rfl
@[simp] theorem State.setP_draws (s : State) (v : Byte) : (s.setP v).draws = s.draws := rfl

/-! ### `State.setNpl` -/

@[simp] theorem State.setNpl_stage (s : State) (v : BitVec 12) : (s.setNpl v).stage = s.stage := rfl
@[simp] theorem State.setNpl_errc (s : State) (v : BitVec 12) : (s.setNpl v).errc = s.errc := rfl
@[simp] theorem State.setNpl_len (s : State) (v : BitVec 12) : (s.setNpl v).len = s.len := rfl
@[simp] theorem State.setNpl_ver (s : State) (v : BitVec 12) : (s.setNpl v).ver = s.ver := rfl
@[simp] theorem State.setNpl_size (s : State) (v : BitVec 12) : (s.setNpl v).size = s.size := rfl
@[simp] theorem State.setNpl_tot (s : State) (v : BitVec 12) : (s.setNpl v).tot = s.tot := rfl
@[simp] theorem State.setNpl_ec (s : State) (v : BitVec 12) : (s.setNpl v).ec = s.ec := rfl
@[simp] theorem State.setNpl_dat (s : State) (v : BitVec 12) : (s.setNpl v).dat = s.dat := rfl
@[simp] theorem State.setNpl_blen (s : State) (v : BitVec 12) : (s.setNpl v).blen = s.blen := rfl
@[simp] theorem State.setNpl_ndc (s : State) (v : BitVec 12) : (s.setNpl v).ndc = s.ndc := rfl
@[simp] theorem State.setNpl_nac (s : State) (v : BitVec 12) : (s.setNpl v).nac = s.nac := rfl
@[simp] theorem State.setNpl_gdeg (s : State) (v : BitVec 12) : (s.setNpl v).gdeg = s.gdeg := rfl
@[simp] theorem State.setNpl_p (s : State) (v : BitVec 12) : (s.setNpl v).p = s.p := rfl
@[simp] theorem State.setNpl_npl (s : State) (v : BitVec 12) : (s.setNpl v).npl = some v := rfl
@[simp] theorem State.setNpl_inp (s : State) (v : BitVec 12) : (s.setNpl v).inp = s.inp := rfl
@[simp] theorem State.setNpl_bs (s : State) (v : BitVec 12) : (s.setNpl v).bs = s.bs := rfl
@[simp] theorem State.setNpl_cw (s : State) (v : BitVec 12) : (s.setNpl v).cw = s.cw := rfl
@[simp] theorem State.setNpl_gen (s : State) (v : BitVec 12) : (s.setNpl v).gen = s.gen := rfl
@[simp] theorem State.setNpl_rem (s : State) (v : BitVec 12) : (s.setNpl v).rem = s.rem := rfl
@[simp] theorem State.setNpl_val (s : State) (v : BitVec 12) : (s.setNpl v).val = s.val := rfl
@[simp] theorem State.setNpl_rsv (s : State) (v : BitVec 12) : (s.setNpl v).rsv = s.rsv := rfl
@[simp] theorem State.setNpl_host (s : State) (v : BitVec 12) : (s.setNpl v).host = s.host := rfl
@[simp] theorem State.setNpl_resp (s : State) (v : BitVec 12) : (s.setNpl v).resp = s.resp := rfl
@[simp] theorem State.setNpl_draws (s : State) (v : BitVec 12) : (s.setNpl v).draws = s.draws := rfl

/-! ### `State.setVersion` -/

@[simp] theorem State.setVersion_stage (s : State) (a : BitVec 4) (b : BitVec 6) (c : BitVec 9) (d : BitVec 5) (e : BitVec 9) : (s.setVersion a b c d e).stage = s.stage := rfl
@[simp] theorem State.setVersion_errc (s : State) (a : BitVec 4) (b : BitVec 6) (c : BitVec 9) (d : BitVec 5) (e : BitVec 9) : (s.setVersion a b c d e).errc = s.errc := rfl
@[simp] theorem State.setVersion_len (s : State) (a : BitVec 4) (b : BitVec 6) (c : BitVec 9) (d : BitVec 5) (e : BitVec 9) : (s.setVersion a b c d e).len = s.len := rfl
@[simp] theorem State.setVersion_ver (s : State) (a : BitVec 4) (b : BitVec 6) (c : BitVec 9) (d : BitVec 5) (e : BitVec 9) : (s.setVersion a b c d e).ver = some a := rfl
@[simp] theorem State.setVersion_size (s : State) (a : BitVec 4) (b : BitVec 6) (c : BitVec 9) (d : BitVec 5) (e : BitVec 9) : (s.setVersion a b c d e).size = some b := rfl
@[simp] theorem State.setVersion_tot (s : State) (a : BitVec 4) (b : BitVec 6) (c : BitVec 9) (d : BitVec 5) (e : BitVec 9) : (s.setVersion a b c d e).tot = some c := rfl
@[simp] theorem State.setVersion_ec (s : State) (a : BitVec 4) (b : BitVec 6) (c : BitVec 9) (d : BitVec 5) (e : BitVec 9) : (s.setVersion a b c d e).ec = some d := rfl
@[simp] theorem State.setVersion_dat (s : State) (a : BitVec 4) (b : BitVec 6) (c : BitVec 9) (d : BitVec 5) (e : BitVec 9) : (s.setVersion a b c d e).dat = some e := rfl
@[simp] theorem State.setVersion_blen (s : State) (a : BitVec 4) (b : BitVec 6) (c : BitVec 9) (d : BitVec 5) (e : BitVec 9) : (s.setVersion a b c d e).blen = s.blen := rfl
@[simp] theorem State.setVersion_ndc (s : State) (a : BitVec 4) (b : BitVec 6) (c : BitVec 9) (d : BitVec 5) (e : BitVec 9) : (s.setVersion a b c d e).ndc = s.ndc := rfl
@[simp] theorem State.setVersion_nac (s : State) (a : BitVec 4) (b : BitVec 6) (c : BitVec 9) (d : BitVec 5) (e : BitVec 9) : (s.setVersion a b c d e).nac = s.nac := rfl
@[simp] theorem State.setVersion_gdeg (s : State) (a : BitVec 4) (b : BitVec 6) (c : BitVec 9) (d : BitVec 5) (e : BitVec 9) : (s.setVersion a b c d e).gdeg = s.gdeg := rfl
@[simp] theorem State.setVersion_p (s : State) (a : BitVec 4) (b : BitVec 6) (c : BitVec 9) (d : BitVec 5) (e : BitVec 9) : (s.setVersion a b c d e).p = s.p := rfl
@[simp] theorem State.setVersion_npl (s : State) (a : BitVec 4) (b : BitVec 6) (c : BitVec 9) (d : BitVec 5) (e : BitVec 9) : (s.setVersion a b c d e).npl = s.npl := rfl
@[simp] theorem State.setVersion_inp (s : State) (a : BitVec 4) (b : BitVec 6) (c : BitVec 9) (d : BitVec 5) (e : BitVec 9) : (s.setVersion a b c d e).inp = s.inp := rfl
@[simp] theorem State.setVersion_bs (s : State) (a : BitVec 4) (b : BitVec 6) (c : BitVec 9) (d : BitVec 5) (e : BitVec 9) : (s.setVersion a b c d e).bs = s.bs := rfl
@[simp] theorem State.setVersion_cw (s : State) (a : BitVec 4) (b : BitVec 6) (c : BitVec 9) (d : BitVec 5) (e : BitVec 9) : (s.setVersion a b c d e).cw = s.cw := rfl
@[simp] theorem State.setVersion_gen (s : State) (a : BitVec 4) (b : BitVec 6) (c : BitVec 9) (d : BitVec 5) (e : BitVec 9) : (s.setVersion a b c d e).gen = s.gen := rfl
@[simp] theorem State.setVersion_rem (s : State) (a : BitVec 4) (b : BitVec 6) (c : BitVec 9) (d : BitVec 5) (e : BitVec 9) : (s.setVersion a b c d e).rem = s.rem := rfl
@[simp] theorem State.setVersion_val (s : State) (a : BitVec 4) (b : BitVec 6) (c : BitVec 9) (d : BitVec 5) (e : BitVec 9) : (s.setVersion a b c d e).val = s.val := rfl
@[simp] theorem State.setVersion_rsv (s : State) (a : BitVec 4) (b : BitVec 6) (c : BitVec 9) (d : BitVec 5) (e : BitVec 9) : (s.setVersion a b c d e).rsv = s.rsv := rfl
@[simp] theorem State.setVersion_host (s : State) (a : BitVec 4) (b : BitVec 6) (c : BitVec 9) (d : BitVec 5) (e : BitVec 9) : (s.setVersion a b c d e).host = s.host := rfl
@[simp] theorem State.setVersion_resp (s : State) (a : BitVec 4) (b : BitVec 6) (c : BitVec 9) (d : BitVec 5) (e : BitVec 9) : (s.setVersion a b c d e).resp = s.resp := rfl
@[simp] theorem State.setVersion_draws (s : State) (a : BitVec 4) (b : BitVec 6) (c : BitVec 9) (d : BitVec 5) (e : BitVec 9) : (s.setVersion a b c d e).draws = s.draws := rfl

/-! ### `State.setInp` -/

@[simp] theorem State.setInp_stage (s : State) (m : Memory 8) : (s.setInp m).stage = s.stage := rfl
@[simp] theorem State.setInp_errc (s : State) (m : Memory 8) : (s.setInp m).errc = s.errc := rfl
@[simp] theorem State.setInp_len (s : State) (m : Memory 8) : (s.setInp m).len = s.len := rfl
@[simp] theorem State.setInp_ver (s : State) (m : Memory 8) : (s.setInp m).ver = s.ver := rfl
@[simp] theorem State.setInp_size (s : State) (m : Memory 8) : (s.setInp m).size = s.size := rfl
@[simp] theorem State.setInp_tot (s : State) (m : Memory 8) : (s.setInp m).tot = s.tot := rfl
@[simp] theorem State.setInp_ec (s : State) (m : Memory 8) : (s.setInp m).ec = s.ec := rfl
@[simp] theorem State.setInp_dat (s : State) (m : Memory 8) : (s.setInp m).dat = s.dat := rfl
@[simp] theorem State.setInp_blen (s : State) (m : Memory 8) : (s.setInp m).blen = s.blen := rfl
@[simp] theorem State.setInp_ndc (s : State) (m : Memory 8) : (s.setInp m).ndc = s.ndc := rfl
@[simp] theorem State.setInp_nac (s : State) (m : Memory 8) : (s.setInp m).nac = s.nac := rfl
@[simp] theorem State.setInp_gdeg (s : State) (m : Memory 8) : (s.setInp m).gdeg = s.gdeg := rfl
@[simp] theorem State.setInp_p (s : State) (m : Memory 8) : (s.setInp m).p = s.p := rfl
@[simp] theorem State.setInp_npl (s : State) (m : Memory 8) : (s.setInp m).npl = s.npl := rfl
@[simp] theorem State.setInp_inp (s : State) (m : Memory 8) : (s.setInp m).inp = m := rfl
@[simp] theorem State.setInp_bs (s : State) (m : Memory 8) : (s.setInp m).bs = s.bs := rfl
@[simp] theorem State.setInp_cw (s : State) (m : Memory 8) : (s.setInp m).cw = s.cw := rfl
@[simp] theorem State.setInp_gen (s : State) (m : Memory 8) : (s.setInp m).gen = s.gen := rfl
@[simp] theorem State.setInp_rem (s : State) (m : Memory 8) : (s.setInp m).rem = s.rem := rfl
@[simp] theorem State.setInp_val (s : State) (m : Memory 8) : (s.setInp m).val = s.val := rfl
@[simp] theorem State.setInp_rsv (s : State) (m : Memory 8) : (s.setInp m).rsv = s.rsv := rfl
@[simp] theorem State.setInp_host (s : State) (m : Memory 8) : (s.setInp m).host = s.host := rfl
@[simp] theorem State.setInp_resp (s : State) (m : Memory 8) : (s.setInp m).resp = s.resp := rfl
@[simp] theorem State.setInp_draws (s : State) (m : Memory 8) : (s.setInp m).draws = s.draws := rfl

/-! ### `State.setStream` -/

@[simp] theorem State.setStream_stage (s : State) (m : Memory 1) (n : BitVec 12) : (s.setStream m n).stage = s.stage := rfl
@[simp] theorem State.setStream_errc (s : State) (m : Memory 1) (n : BitVec 12) : (s.setStream m n).errc = s.errc := rfl
@[simp] theorem State.setStream_len (s : State) (m : Memory 1) (n : BitVec 12) : (s.setStream m n).len = s.len := rfl
@[simp] theorem State.setStream_ver (s : State) (m : Memory 1) (n : BitVec 12) : (s.setStream m n).ver = s.ver := rfl
@[simp] theorem State.setStream_size (s : State) (m : Memory 1) (n : BitVec 12) : (s.setStream m n).size = s.size := rfl
@[simp] theorem State.setStream_tot (s : State) (m : Memory 1) (n : BitVec 12) : (s.setStream m n).tot = s.tot := rfl
@[simp] theorem State.setStream_ec (s : State) (m : Memory 1) (n : BitVec 12) : (s.setStream m n).ec = s.ec := rfl
@[simp] theorem State.setStream_dat (s : State) (m : Memory 1) (n : BitVec 12) : (s.setStream m n).dat = s.dat := rfl
@[simp] theorem State.setStream_blen (s : State) (m : Memory 1) (n : BitVec 12) : (s.setStream m n).blen = some n := rfl
@[simp] theorem State.setStream_ndc (s : State) (m : Memory 1) (n : BitVec 12) : (s.setStream m n).ndc = s.ndc := rfl
@[simp] theorem State.setStream_nac (s : State) (m : Memory 1) (n : BitVec 12) : (s.setStream m n).nac = s.nac := rfl
@[simp] theorem State.setStream_gdeg (s : State) (m : Memory 1) (n : BitVec 12) : (s.setStream m n).gdeg = s.gdeg := rfl
@[simp] theorem State.setStream_p (s : State) (m : Memory 1) (n : BitVec 12) : (s.setStream m n).p = s.p := rfl
@[simp] theorem State.setStream_npl (s : State) (m : Memory 1) (n : BitVec 12) : (s.setStream m n).npl = s.npl := rfl
@[simp] theorem State.setStream_inp (s : State) (m : Memory 1) (n : BitVec 12) : (s.setStream m n).inp = s.inp := rfl
@[simp] theorem State.setStream_bs (s : State) (m : Memory 1) (n : BitVec 12) : (s.setStream m n).bs = m := rfl
@[simp] theorem State.setStream_cw (s : State) (m : Memory 1) (n : BitVec 12) : (s.setStream m n).cw = s.cw := rfl
@[simp] theorem State.setStream_gen (s : State) (m : Memory 1) (n : BitVec 12) : (s.setStream m n).gen = s.gen := rfl
@[simp] theorem State.setStream_rem (s : State) (m : Memory 1) (n : BitVec 12) : (s.setStream m n).rem = s.rem := rfl
@[simp] theorem State.setStream_val (s : State) (m : Memory 1) (n : BitVec 12) : (s.setStream m n).val = s.val := rfl
@[simp] theorem State.setStream_rsv (s : State) (m : Memory 1) (n : BitVec 12) : (s.setStream m n).rsv = s.rsv := rfl
@[simp] theorem State.setStream_host (s : State) (m : Memory 1) (n : BitVec 12) : (s.setStream m n).host = s.host := rfl
@[simp] theorem State.setStream_resp (s : State) (m : Memory 1) (n : BitVec 12) : (s.setStream m n).resp = s.resp := rfl
@[simp] theorem State.setStream_draws (s : State) (m : Memory 1) (n : BitVec 12) : (s.setStream m n).draws = s.draws := rfl

/-! ### `State.setData` -/

@[simp] theorem State.setData_stage (s : State) (m : Memory 8) (n : BitVec 9) : (s.setData m n).stage = s.stage := rfl
@[simp] theorem State.setData_errc (s : State) (m : Memory 8) (n : BitVec 9) : (s.setData m n).errc = s.errc := rfl
@[simp] theorem State.setData_len (s : State) (m : Memory 8) (n : BitVec 9) : (s.setData m n).len = s.len := rfl
@[simp] theorem State.setData_ver (s : State) (m : Memory 8) (n : BitVec 9) : (s.setData m n).ver = s.ver := rfl
@[simp] theorem State.setData_size (s : State) (m : Memory 8) (n : BitVec 9) : (s.setData m n).size = s.size := rfl
@[simp] theorem State.setData_tot (s : State) (m : Memory 8) (n : BitVec 9) : (s.setData m n).tot = s.tot := rfl
@[simp] theorem State.setData_ec (s : State) (m : Memory 8) (n : BitVec 9) : (s.setData m n).ec = s.ec := rfl
@[simp] theorem State.setData_dat (s : State) (m : Memory 8) (n : BitVec 9) : (s.setData m n).dat = s.dat := rfl
@[simp] theorem State.setData_blen (s : State) (m : Memory 8) (n : BitVec 9) : (s.setData m n).blen = s.blen := rfl
@[simp] theorem State.setData_ndc (s : State) (m : Memory 8) (n : BitVec 9) : (s.setData m n).ndc = some n := rfl
@[simp] theorem State.setData_nac (s : State) (m : Memory 8) (n : BitVec 9) : (s.setData m n).nac = s.nac := rfl
@[simp] theorem State.setData_gdeg (s : State) (m : Memory 8) (n : BitVec 9) : (s.setData m n).gdeg = s.gdeg := rfl
@[simp] theorem State.setData_p (s : State) (m : Memory 8) (n : BitVec 9) : (s.setData m n).p = s.p := rfl
@[simp] theorem State.setData_npl (s : State) (m : Memory 8) (n : BitVec 9) : (s.setData m n).npl = s.npl := rfl
@[simp] theorem State.setData_inp (s : State) (m : Memory 8) (n : BitVec 9) : (s.setData m n).inp = s.inp := rfl
@[simp] theorem State.setData_bs (s : State) (m : Memory 8) (n : BitVec 9) : (s.setData m n).bs = s.bs := rfl
@[simp] theorem State.setData_cw (s : State) (m : Memory 8) (n : BitVec 9) : (s.setData m n).cw = m := rfl
@[simp] theorem State.setData_gen (s : State) (m : Memory 8) (n : BitVec 9) : (s.setData m n).gen = s.gen := rfl
@[simp] theorem State.setData_rem (s : State) (m : Memory 8) (n : BitVec 9) : (s.setData m n).rem = s.rem := rfl
@[simp] theorem State.setData_val (s : State) (m : Memory 8) (n : BitVec 9) : (s.setData m n).val = s.val := rfl
@[simp] theorem State.setData_rsv (s : State) (m : Memory 8) (n : BitVec 9) : (s.setData m n).rsv = s.rsv := rfl
@[simp] theorem State.setData_host (s : State) (m : Memory 8) (n : BitVec 9) : (s.setData m n).host = s.host := rfl
@[simp] theorem State.setData_resp (s : State) (m : Memory 8) (n : BitVec 9) : (s.setData m n).resp = s.resp := rfl
@[simp] theorem State.setData_draws (s : State) (m : Memory 8) (n : BitVec 9) : (s.setData m n).draws = s.draws := rfl

/-! ### `State.setAll` -/

@[simp] theorem State.setAll_stage (s : State) (m : Memory 8) (n : BitVec 9) : (s.setAll m n).stage = s.stage := rfl
@[simp] theorem State.setAll_errc (s : State) (m : Memory 8) (n : BitVec 9) : (s.setAll m n).errc = s.errc := rfl
@[simp] theorem State.setAll_len (s : State) (m : Memory 8) (n : BitVec 9) : (s.setAll m n).len = s.len := rfl
@[simp] theorem State.setAll_ver (s : State) (m : Memory 8) (n : BitVec 9) : (s.setAll m n).ver = s.ver := rfl
@[simp] theorem State.setAll_size (s : State) (m : Memory 8) (n : BitVec 9) : (s.setAll m n).size = s.size := rfl
@[simp] theorem State.setAll_tot (s : State) (m : Memory 8) (n : BitVec 9) : (s.setAll m n).tot = s.tot := rfl
@[simp] theorem State.setAll_ec (s : State) (m : Memory 8) (n : BitVec 9) : (s.setAll m n).ec = s.ec := rfl
@[simp] theorem State.setAll_dat (s : State) (m : Memory 8) (n : BitVec 9) : (s.setAll m n).dat = s.dat := rfl
@[simp] theorem State.setAll_blen (s : State) (m : Memory 8) (n : BitVec 9) : (s.setAll m n).blen = s.blen := rfl
@[simp] theorem State.setAll_ndc (s : State) (m : Memory 8) (n : BitVec 9) : (s.setAll m n).ndc = s.ndc := rfl
@[simp] theorem State.setAll_nac (s : State) (m : Memory 8) (n : BitVec 9) : (s.setAll m n).nac = some n := rfl
@[simp] theorem State.setAll_gdeg (s : State) (m : Memory 8) (n : BitVec 9) : (s.setAll m n).gdeg = s.gdeg := rfl
@[simp] theorem State.setAll_p (s : State) (m : Memory 8) (n : BitVec 9) : (s.setAll m n).p = s.p := rfl
@[simp] theorem State.setAll_npl (s : State) (m : Memory 8) (n : BitVec 9) : (s.setAll m n).npl = s.npl := rfl
@[simp] theorem State.setAll_inp (s : State) (m : Memory 8) (n : BitVec 9) : (s.setAll m n).inp = s.inp := rfl
@[simp] theorem State.setAll_bs (s : State) (m : Memory 8) (n : BitVec 9) : (s.setAll m n).bs = s.bs := rfl
@[simp] theorem State.setAll_cw (s : State) (m : Memory 8) (n : BitVec 9) : (s.setAll m n).cw = m := rfl
@[simp] theorem State.setAll_gen (s : State) (m : Memory 8) (n : BitVec 9) : (s.setAll m n).gen = s.gen := rfl
@[simp] theorem State.setAll_rem (s : State) (m : Memory 8) (n : BitVec 9) : (s.setAll m n).rem = s.rem := rfl
@[simp] theorem State.setAll_val (s : State) (m : Memory 8) (n : BitVec 9) : (s.setAll m n).val = s.val := rfl
@[simp] theorem State.setAll_rsv (s : State) (m : Memory 8) (n : BitVec 9) : (s.setAll m n).rsv = s.rsv := rfl
@[simp] theorem State.setAll_host (s : State) (m : Memory 8) (n : BitVec 9) : (s.setAll m n).host = s.host := rfl
@[simp] theorem State.setAll_resp (s : State) (m : Memory 8) (n : BitVec 9) : (s.setAll m n).resp = s.resp := rfl
@[simp] theorem State.setAll_draws (s : State) (m : Memory 8) (n : BitVec 9) : (s.setAll m n).draws = s.draws := rfl

/-! ### `State.setGen` -/

@[simp] theorem State.setGen_stage (s : State) (m : Memory 8) (n : BitVec 5) : (s.setGen m n).stage = s.stage := rfl
@[simp] theorem State.setGen_errc (s : State) (m : Memory 8) (n : BitVec 5) : (s.setGen m n).errc = s.errc := rfl
@[simp] theorem State.setGen_len (s : State) (m : Memory 8) (n : BitVec 5) : (s.setGen m n).len = s.len := rfl
@[simp] theorem State.setGen_ver (s : State) (m : Memory 8) (n : BitVec 5) : (s.setGen m n).ver = s.ver := rfl
@[simp] theorem State.setGen_size (s : State) (m : Memory 8) (n : BitVec 5) : (s.setGen m n).size = s.size := rfl
@[simp] theorem State.setGen_tot (s : State) (m : Memory 8) (n : BitVec 5) : (s.setGen m n).tot = s.tot := rfl
@[simp] theorem State.setGen_ec (s : State) (m : Memory 8) (n : BitVec 5) : (s.setGen m n).ec = s.ec := rfl
@[simp] theorem State.setGen_dat (s : State) (m : Memory 8) (n : BitVec 5) : (s.setGen m n).dat = s.dat := rfl
@[simp] theorem State.setGen_blen (s : State) (m : Memory 8) (n : BitVec 5) : (s.setGen m n).blen = s.blen := rfl
@[simp] theorem State.setGen_ndc (s : State) (m : Memory 8) (n : BitVec 5) : (s.setGen m n).ndc = s.ndc := rfl
@[simp] theorem State.setGen_nac (s : State) (m : Memory 8) (n : BitVec 5) : (s.setGen m n).nac = s.nac := rfl
@[simp] theorem State.setGen_gdeg (s : State) (m : Memory 8) (n : BitVec 5) : (s.setGen m n).gdeg = some n := rfl
@[simp] theorem State.setGen_p (s : State) (m : Memory 8) (n : BitVec 5) : (s.setGen m n).p = s.p := rfl
@[simp] theorem State.setGen_npl (s : State) (m : Memory 8) (n : BitVec 5) : (s.setGen m n).npl = s.npl := rfl
@[simp] theorem State.setGen_inp (s : State) (m : Memory 8) (n : BitVec 5) : (s.setGen m n).inp = s.inp := rfl
@[simp] theorem State.setGen_bs (s : State) (m : Memory 8) (n : BitVec 5) : (s.setGen m n).bs = s.bs := rfl
@[simp] theorem State.setGen_cw (s : State) (m : Memory 8) (n : BitVec 5) : (s.setGen m n).cw = s.cw := rfl
@[simp] theorem State.setGen_gen (s : State) (m : Memory 8) (n : BitVec 5) : (s.setGen m n).gen = m := rfl
@[simp] theorem State.setGen_rem (s : State) (m : Memory 8) (n : BitVec 5) : (s.setGen m n).rem = s.rem := rfl
@[simp] theorem State.setGen_val (s : State) (m : Memory 8) (n : BitVec 5) : (s.setGen m n).val = s.val := rfl
@[simp] theorem State.setGen_rsv (s : State) (m : Memory 8) (n : BitVec 5) : (s.setGen m n).rsv = s.rsv := rfl
@[simp] theorem State.setGen_host (s : State) (m : Memory 8) (n : BitVec 5) : (s.setGen m n).host = s.host := rfl
@[simp] theorem State.setGen_resp (s : State) (m : Memory 8) (n : BitVec 5) : (s.setGen m n).resp = s.resp := rfl
@[simp] theorem State.setGen_draws (s : State) (m : Memory 8) (n : BitVec 5) : (s.setGen m n).draws = s.draws := rfl

/-! ### `State.setRem` -/

@[simp] theorem State.setRem_stage (s : State) (m : Memory 8) : (s.setRem m).stage = s.stage := rfl
@[simp] theorem State.setRem_errc (s : State) (m : Memory 8) : (s.setRem m).errc = s.errc := rfl
@[simp] theorem State.setRem_len (s : State) (m : Memory 8) : (s.setRem m).len = s.len := rfl
@[simp] theorem State.setRem_ver (s : State) (m : Memory 8) : (s.setRem m).ver = s.ver := rfl
@[simp] theorem State.setRem_size (s : State) (m : Memory 8) : (s.setRem m).size = s.size := rfl
@[simp] theorem State.setRem_tot (s : State) (m : Memory 8) : (s.setRem m).tot = s.tot := rfl
@[simp] theorem State.setRem_ec (s : State) (m : Memory 8) : (s.setRem m).ec = s.ec := rfl
@[simp] theorem State.setRem_dat (s : State) (m : Memory 8) : (s.setRem m).dat = s.dat := rfl
@[simp] theorem State.setRem_blen (s : State) (m : Memory 8) : (s.setRem m).blen = s.blen := rfl
@[simp] theorem State.setRem_ndc (s : State) (m : Memory 8) : (s.setRem m).ndc = s.ndc := rfl
@[simp] theorem State.setRem_nac (s : State) (m : Memory 8) : (s.setRem m).nac = s.nac := rfl
@[simp] theorem State.setRem_gdeg (s : State) (m : Memory 8) : (s.setRem m).gdeg = s.gdeg := rfl
@[simp] theorem State.setRem_p (s : State) (m : Memory 8) : (s.setRem m).p = s.p := rfl
@[simp] theorem State.setRem_npl (s : State) (m : Memory 8) : (s.setRem m).npl = s.npl := rfl
@[simp] theorem State.setRem_inp (s : State) (m : Memory 8) : (s.setRem m).inp = s.inp := rfl
@[simp] theorem State.setRem_bs (s : State) (m : Memory 8) : (s.setRem m).bs = s.bs := rfl
@[simp] theorem State.setRem_cw (s : State) (m : Memory 8) : (s.setRem m).cw = s.cw := rfl
@[simp] theorem State.setRem_gen (s : State) (m : Memory 8) : (s.setRem m).gen = s.gen := rfl
@[simp] theorem State.setRem_rem (s : State) (m : Memory 8) : (s.setRem m).rem = m := rfl
@[simp] theorem State.setRem_val (s : State) (m : Memory 8) : (s.setRem m).val = s.val := rfl
@[simp] theorem State.setRem_rsv (s : State) (m : Memory 8) : (s.setRem m).rsv = s.rsv := rfl
@[simp] theorem State.setRem_host (s : State) (m : Memory 8) : (s.setRem m).host = s.host := rfl
@[simp] theorem State.setRem_resp (s : State) (m : Memory 8) : (s.setRem m).resp = s.resp := rfl
@[simp] theorem State.setRem_draws (s : State) (m : Memory 8) : (s.setRem m).draws = s.draws := rfl

/-! ### `State.setVal` -/

@[simp] theorem State.setVal_stage (s : State) (m : Memory 1) : (s.setVal m).stage = s.stage := rfl
@[simp] theorem State.setVal_errc (s : State) (m : Memory 1) : (s.setVal m).errc = s.errc := rfl
@[simp] theorem State.setVal_len (s : State) (m : Memory 1) : (s.setVal m).len = s.len := rfl
@[simp] theorem State.setVal_ver (s : State) (m : Memory 1) : (s.setVal m).ver = s.ver := rfl
@[simp] theorem State.setVal_size (s : State) (m : Memory 1) : (s.setVal m).size = s.size := rfl
@[simp] theorem State.setVal_tot (s : State) (m : Memory 1) : (s.setVal m).tot = s.tot := rfl
@[simp] theorem State.setVal_ec (s : State) (m : Memory 1) : (s.setVal m).ec = s.ec := rfl
@[simp] theorem State.setVal_dat (s : State) (m : Memory 1) : (s.setVal m).dat = s.dat := rfl
@[simp] theorem State.setVal_blen (s : State) (m : Memory 1) : (s.setVal m).blen = s.blen := rfl
@[simp] theorem State.setVal_ndc (s : State) (m : Memory 1) : (s.setVal m).ndc = s.ndc := rfl
@[simp] theorem State.setVal_nac (s : State) (m : Memory 1) : (s.setVal m).nac = s.nac := rfl
@[simp] theorem State.setVal_gdeg (s : State) (m : Memory 1) : (s.setVal m).gdeg = s.gdeg := rfl
@[simp] theorem State.setVal_p (s : State) (m : Memory 1) : (s.setVal m).p = s.p := rfl
@[simp] theorem State.setVal_npl (s : State) (m : Memory 1) : (s.setVal m).npl = s.npl := rfl
@[simp] theorem State.setVal_inp (s : State) (m : Memory 1) : (s.setVal m).inp = s.inp := rfl
@[simp] theorem State.setVal_bs (s : State) (m : Memory 1) : (s.setVal m).bs = s.bs := rfl
@[simp] theorem State.setVal_cw (s : State) (m : Memory 1) : (s.setVal m).cw = s.cw := rfl
@[simp] theorem State.setVal_gen (s : State) (m : Memory 1) : (s.setVal m).gen = s.gen := rfl
@[simp] theorem State.setVal_rem (s : State) (m : Memory 1) : (s.setVal m).rem = s.rem := rfl
@[simp] theorem State.setVal_val (s : State) (m : Memory 1) : (s.setVal m).val = m := rfl
@[simp] theorem State.setVal_rsv (s : State) (m : Memory 1) : (s.setVal m).rsv = s.rsv := rfl
@[simp] theorem State.setVal_host (s : State) (m : Memory 1) : (s.setVal m).host = s.host := rfl
@[simp] theorem State.setVal_resp (s : State) (m : Memory 1) : (s.setVal m).resp = s.resp := rfl
@[simp] theorem State.setVal_draws (s : State) (m : Memory 1) : (s.setVal m).draws = s.draws := rfl

/-! ### `State.setRsv` -/

@[simp] theorem State.setRsv_stage (s : State) (m : Memory 1) : (s.setRsv m).stage = s.stage := rfl
@[simp] theorem State.setRsv_errc (s : State) (m : Memory 1) : (s.setRsv m).errc = s.errc := rfl
@[simp] theorem State.setRsv_len (s : State) (m : Memory 1) : (s.setRsv m).len = s.len := rfl
@[simp] theorem State.setRsv_ver (s : State) (m : Memory 1) : (s.setRsv m).ver = s.ver := rfl
@[simp] theorem State.setRsv_size (s : State) (m : Memory 1) : (s.setRsv m).size = s.size := rfl
@[simp] theorem State.setRsv_tot (s : State) (m : Memory 1) : (s.setRsv m).tot = s.tot := rfl
@[simp] theorem State.setRsv_ec (s : State) (m : Memory 1) : (s.setRsv m).ec = s.ec := rfl
@[simp] theorem State.setRsv_dat (s : State) (m : Memory 1) : (s.setRsv m).dat = s.dat := rfl
@[simp] theorem State.setRsv_blen (s : State) (m : Memory 1) : (s.setRsv m).blen = s.blen := rfl
@[simp] theorem State.setRsv_ndc (s : State) (m : Memory 1) : (s.setRsv m).ndc = s.ndc := rfl
@[simp] theorem State.setRsv_nac (s : State) (m : Memory 1) : (s.setRsv m).nac = s.nac := rfl
@[simp] theorem State.setRsv_gdeg (s : State) (m : Memory 1) : (s.setRsv m).gdeg = s.gdeg := rfl
@[simp] theorem State.setRsv_p (s : State) (m : Memory 1) : (s.setRsv m).p = s.p := rfl
@[simp] theorem State.setRsv_npl (s : State) (m : Memory 1) : (s.setRsv m).npl = s.npl := rfl
@[simp] theorem State.setRsv_inp (s : State) (m : Memory 1) : (s.setRsv m).inp = s.inp := rfl
@[simp] theorem State.setRsv_bs (s : State) (m : Memory 1) : (s.setRsv m).bs = s.bs := rfl
@[simp] theorem State.setRsv_cw (s : State) (m : Memory 1) : (s.setRsv m).cw = s.cw := rfl
@[simp] theorem State.setRsv_gen (s : State) (m : Memory 1) : (s.setRsv m).gen = s.gen := rfl
@[simp] theorem State.setRsv_rem (s : State) (m : Memory 1) : (s.setRsv m).rem = s.rem := rfl
@[simp] theorem State.setRsv_val (s : State) (m : Memory 1) : (s.setRsv m).val = s.val := rfl
@[simp] theorem State.setRsv_rsv (s : State) (m : Memory 1) : (s.setRsv m).rsv = m := rfl
@[simp] theorem State.setRsv_host (s : State) (m : Memory 1) : (s.setRsv m).host = s.host := rfl
@[simp] theorem State.setRsv_resp (s : State) (m : Memory 1) : (s.setRsv m).resp = s.resp := rfl
@[simp] theorem State.setRsv_draws (s : State) (m : Memory 1) : (s.setRsv m).draws = s.draws := rfl

/-! ### `State.respond` -/

@[simp] theorem State.respond_stage (s : State) (r : Option Word) : (s.respond r).stage = s.stage := rfl
@[simp] theorem State.respond_errc (s : State) (r : Option Word) : (s.respond r).errc = s.errc := rfl
@[simp] theorem State.respond_len (s : State) (r : Option Word) : (s.respond r).len = s.len := rfl
@[simp] theorem State.respond_ver (s : State) (r : Option Word) : (s.respond r).ver = s.ver := rfl
@[simp] theorem State.respond_size (s : State) (r : Option Word) : (s.respond r).size = s.size := rfl
@[simp] theorem State.respond_tot (s : State) (r : Option Word) : (s.respond r).tot = s.tot := rfl
@[simp] theorem State.respond_ec (s : State) (r : Option Word) : (s.respond r).ec = s.ec := rfl
@[simp] theorem State.respond_dat (s : State) (r : Option Word) : (s.respond r).dat = s.dat := rfl
@[simp] theorem State.respond_blen (s : State) (r : Option Word) : (s.respond r).blen = s.blen := rfl
@[simp] theorem State.respond_ndc (s : State) (r : Option Word) : (s.respond r).ndc = s.ndc := rfl
@[simp] theorem State.respond_nac (s : State) (r : Option Word) : (s.respond r).nac = s.nac := rfl
@[simp] theorem State.respond_gdeg (s : State) (r : Option Word) : (s.respond r).gdeg = s.gdeg := rfl
@[simp] theorem State.respond_p (s : State) (r : Option Word) : (s.respond r).p = s.p := rfl
@[simp] theorem State.respond_npl (s : State) (r : Option Word) : (s.respond r).npl = s.npl := rfl
@[simp] theorem State.respond_inp (s : State) (r : Option Word) : (s.respond r).inp = s.inp := rfl
@[simp] theorem State.respond_bs (s : State) (r : Option Word) : (s.respond r).bs = s.bs := rfl
@[simp] theorem State.respond_cw (s : State) (r : Option Word) : (s.respond r).cw = s.cw := rfl
@[simp] theorem State.respond_gen (s : State) (r : Option Word) : (s.respond r).gen = s.gen := rfl
@[simp] theorem State.respond_rem (s : State) (r : Option Word) : (s.respond r).rem = s.rem := rfl
@[simp] theorem State.respond_val (s : State) (r : Option Word) : (s.respond r).val = s.val := rfl
@[simp] theorem State.respond_rsv (s : State) (r : Option Word) : (s.respond r).rsv = s.rsv := rfl
@[simp] theorem State.respond_host (s : State) (r : Option Word) : (s.respond r).host = s.host := rfl
@[simp] theorem State.respond_resp (s : State) (r : Option Word) : (s.respond r).resp = r := rfl
@[simp] theorem State.respond_draws (s : State) (r : Option Word) : (s.respond r).draws = s.draws := rfl

/-! ### `State.takeOp` -/

@[simp] theorem State.takeOp_stage (s : State) (l : List HostOp) : (s.takeOp l).stage = s.stage := rfl
@[simp] theorem State.takeOp_errc (s : State) (l : List HostOp) : (s.takeOp l).errc = s.errc := rfl
@[simp] theorem State.takeOp_len (s : State) (l : List HostOp) : (s.takeOp l).len = s.len := rfl
@[simp] theorem State.takeOp_ver (s : State) (l : List HostOp) : (s.takeOp l).ver = s.ver := rfl
@[simp] theorem State.takeOp_size (s : State) (l : List HostOp) : (s.takeOp l).size = s.size := rfl
@[simp] theorem State.takeOp_tot (s : State) (l : List HostOp) : (s.takeOp l).tot = s.tot := rfl
@[simp] theorem State.takeOp_ec (s : State) (l : List HostOp) : (s.takeOp l).ec = s.ec := rfl
@[simp] theorem State.takeOp_dat (s : State) (l : List HostOp) : (s.takeOp l).dat = s.dat := rfl
@[simp] theorem State.takeOp_blen (s : State) (l : List HostOp) : (s.takeOp l).blen = s.blen := rfl
@[simp] theorem State.takeOp_ndc (s : State) (l : List HostOp) : (s.takeOp l).ndc = s.ndc := rfl
@[simp] theorem State.takeOp_nac (s : State) (l : List HostOp) : (s.takeOp l).nac = s.nac := rfl
@[simp] theorem State.takeOp_gdeg (s : State) (l : List HostOp) : (s.takeOp l).gdeg = s.gdeg := rfl
@[simp] theorem State.takeOp_p (s : State) (l : List HostOp) : (s.takeOp l).p = s.p := rfl
@[simp] theorem State.takeOp_npl (s : State) (l : List HostOp) : (s.takeOp l).npl = s.npl := rfl
@[simp] theorem State.takeOp_inp (s : State) (l : List HostOp) : (s.takeOp l).inp = s.inp := rfl
@[simp] theorem State.takeOp_bs (s : State) (l : List HostOp) : (s.takeOp l).bs = s.bs := rfl
@[simp] theorem State.takeOp_cw (s : State) (l : List HostOp) : (s.takeOp l).cw = s.cw := rfl
@[simp] theorem State.takeOp_gen (s : State) (l : List HostOp) : (s.takeOp l).gen = s.gen := rfl
@[simp] theorem State.takeOp_rem (s : State) (l : List HostOp) : (s.takeOp l).rem = s.rem := rfl
@[simp] theorem State.takeOp_val (s : State) (l : List HostOp) : (s.takeOp l).val = s.val := rfl
@[simp] theorem State.takeOp_rsv (s : State) (l : List HostOp) : (s.takeOp l).rsv = s.rsv := rfl
@[simp] theorem State.takeOp_host (s : State) (l : List HostOp) : (s.takeOp l).host = l := rfl
@[simp] theorem State.takeOp_resp (s : State) (l : List HostOp) : (s.takeOp l).resp = s.resp := rfl
@[simp] theorem State.takeOp_draws (s : State) (l : List HostOp) : (s.takeOp l).draws = s.draws + 1 := rfl

/-! ### `State.cleared` -/

@[simp] theorem State.cleared_stage (s : State) : (s.cleared).stage = 0#5 := rfl
@[simp] theorem State.cleared_errc (s : State) : (s.cleared).errc = 0#3 := rfl
@[simp] theorem State.cleared_len (s : State) : (s.cleared).len = some 0#16 := rfl
@[simp] theorem State.cleared_ver (s : State) : (s.cleared).ver = none := rfl
@[simp] theorem State.cleared_size (s : State) : (s.cleared).size = none := rfl
@[simp] theorem State.cleared_tot (s : State) : (s.cleared).tot = none := rfl
@[simp] theorem State.cleared_ec (s : State) : (s.cleared).ec = none := rfl
@[simp] theorem State.cleared_dat (s : State) : (s.cleared).dat = none := rfl
@[simp] theorem State.cleared_blen (s : State) : (s.cleared).blen = none := rfl
@[simp] theorem State.cleared_ndc (s : State) : (s.cleared).ndc = none := rfl
@[simp] theorem State.cleared_nac (s : State) : (s.cleared).nac = none := rfl
@[simp] theorem State.cleared_gdeg (s : State) : (s.cleared).gdeg = none := rfl
@[simp] theorem State.cleared_p (s : State) : (s.cleared).p = none := rfl
@[simp] theorem State.cleared_npl (s : State) : (s.cleared).npl = none := rfl
@[simp] theorem State.cleared_inp (s : State) : (s.cleared).inp = [] := rfl
@[simp] theorem State.cleared_bs (s : State) : (s.cleared).bs = [] := rfl
@[simp] theorem State.cleared_cw (s : State) : (s.cleared).cw = [] := rfl
@[simp] theorem State.cleared_gen (s : State) : (s.cleared).gen = [] := rfl
@[simp] theorem State.cleared_rem (s : State) : (s.cleared).rem = [] := rfl
@[simp] theorem State.cleared_val (s : State) : (s.cleared).val = [] := rfl
@[simp] theorem State.cleared_rsv (s : State) : (s.cleared).rsv = [] := rfl
@[simp] theorem State.cleared_host (s : State) : (s.cleared).host = s.host := rfl
@[simp] theorem State.cleared_resp (s : State) : (s.cleared).resp = s.resp := rfl
@[simp] theorem State.cleared_draws (s : State) : (s.cleared).draws = s.draws := rfl

/-! ### `State.faulted` -/

@[simp] theorem State.faulted_stage (s : State) (f : Fault) : (s.faulted f).stage = stageErr := rfl
@[simp] theorem State.faulted_errc (s : State) (f : Fault) : (s.faulted f).errc = f.code := rfl
@[simp] theorem State.faulted_len (s : State) (f : Fault) : (s.faulted f).len = none := rfl
@[simp] theorem State.faulted_ver (s : State) (f : Fault) : (s.faulted f).ver = none := rfl
@[simp] theorem State.faulted_size (s : State) (f : Fault) : (s.faulted f).size = none := rfl
@[simp] theorem State.faulted_tot (s : State) (f : Fault) : (s.faulted f).tot = none := rfl
@[simp] theorem State.faulted_ec (s : State) (f : Fault) : (s.faulted f).ec = none := rfl
@[simp] theorem State.faulted_dat (s : State) (f : Fault) : (s.faulted f).dat = none := rfl
@[simp] theorem State.faulted_blen (s : State) (f : Fault) : (s.faulted f).blen = none := rfl
@[simp] theorem State.faulted_ndc (s : State) (f : Fault) : (s.faulted f).ndc = none := rfl
@[simp] theorem State.faulted_nac (s : State) (f : Fault) : (s.faulted f).nac = none := rfl
@[simp] theorem State.faulted_gdeg (s : State) (f : Fault) : (s.faulted f).gdeg = none := rfl
@[simp] theorem State.faulted_p (s : State) (f : Fault) : (s.faulted f).p = none := rfl
@[simp] theorem State.faulted_npl (s : State) (f : Fault) : (s.faulted f).npl = none := rfl
@[simp] theorem State.faulted_inp (s : State) (f : Fault) : (s.faulted f).inp = [] := rfl
@[simp] theorem State.faulted_bs (s : State) (f : Fault) : (s.faulted f).bs = [] := rfl
@[simp] theorem State.faulted_cw (s : State) (f : Fault) : (s.faulted f).cw = [] := rfl
@[simp] theorem State.faulted_gen (s : State) (f : Fault) : (s.faulted f).gen = [] := rfl
@[simp] theorem State.faulted_rem (s : State) (f : Fault) : (s.faulted f).rem = [] := rfl
@[simp] theorem State.faulted_val (s : State) (f : Fault) : (s.faulted f).val = [] := rfl
@[simp] theorem State.faulted_rsv (s : State) (f : Fault) : (s.faulted f).rsv = [] := rfl
@[simp] theorem State.faulted_host (s : State) (f : Fault) : (s.faulted f).host = s.host := rfl
@[simp] theorem State.faulted_resp (s : State) (f : Fault) : (s.faulted f).resp = s.resp := rfl
@[simp] theorem State.faulted_draws (s : State) (f : Fault) : (s.faulted f).draws = s.draws := rfl

end Sys2Proof.Machine
end

