-- ==== Sys2Proof/Laws/Command.lean ====
section
/-! SUPPORT. What the shared operations of a command can do: the fault entry, the acceptance of a command, a pipeline
command, the chain of `ENCODE`. -/

namespace Sys2Proof.Machine

/-! ## The fault entry -/

/-- A first fault enters stage `ERR`. -/
theorem State.raise_of_ne (s : State) (f : Fault) (h : s.stage ≠ stageErr) : s.raise f = s.faulted f := by
  simp [State.raise, h]

/-- A later fault changes nothing. -/
theorem State.raise_of_eq (s : State) (f : Fault) (h : s.stage = stageErr) : s.raise f = s := by
  simp [State.raise, h]

@[simp] theorem State.raise_stage (s : State) (f : Fault) : (s.raise f).stage = stageErr := by
  by_cases h : s.stage = stageErr
  · rw [State.raise_of_eq s f h, h]
  · rw [State.raise_of_ne s f h]; rfl

@[simp] theorem State.raise_host (s : State) (f : Fault) : (s.raise f).host = s.host := by
  unfold State.raise; split <;> rfl

@[simp] theorem State.raise_resp (s : State) (f : Fault) : (s.raise f).resp = s.resp := by
  unfold State.raise; split <;> rfl

@[simp] theorem State.raise_draws (s : State) (f : Fault) : (s.raise f).draws = s.draws := by
  unfold State.raise; split <;> rfl

/-! ## Acceptance -/

/-- What a command can leave: nothing new in stage `ERR`; the body's state, or the body's fault, in an accepted stage;
`SEQ` in any other. -/
theorem State.command_cases (accepts : BitVec 5 → Bool) (body : State → Except Fault State) (s : State) :
    (s.stage = stageErr ∧ s.command accepts body = s) ∨
    (s.stage ≠ stageErr ∧ accepts s.stage = true ∧
      ((∃ t, body s = .ok t ∧ s.command accepts body = t) ∨
       (∃ f, body s = .error f ∧ s.command accepts body = s.faulted f))) ∨
    (s.stage ≠ stageErr ∧ accepts s.stage = false ∧ s.command accepts body = s.faulted .seq) := by
  by_cases h : s.stage = stageErr
  · exact .inl ⟨h, by simp [State.command, h]⟩
  · cases ha : accepts s.stage with
    | false => exact .inr (.inr ⟨h, rfl, by simp [State.command, h, ha, State.raise_of_ne]⟩)
    | true =>
      refine .inr (.inl ⟨h, rfl, ?_⟩)
      cases hb : body s with
      | ok t => exact .inl ⟨t, rfl, by simp [State.command, h, ha, hb]⟩
      | error f => exact .inr ⟨f, rfl, by simp [State.command, h, ha, hb, State.raise_of_ne]⟩

@[simp] theorem State.command_err (accepts : BitVec 5 → Bool) (body : State → Except Fault State) (s : State)
    (h : s.stage = stageErr) : s.command accepts body = s := by
  simp [State.command, h]

theorem State.command_ok (accepts : BitVec 5 → Bool) (body : State → Except Fault State) (s t : State)
    (h : s.stage ≠ stageErr) (ha : accepts s.stage = true) (hb : body s = .ok t) : s.command accepts body = t := by
  simp [State.command, h, ha, hb]

theorem State.command_error (accepts : BitVec 5 → Bool) (body : State → Except Fault State) (s : State) (f : Fault)
    (h : s.stage ≠ stageErr) (ha : accepts s.stage = true) (hb : body s = .error f) :
    s.command accepts body = s.faulted f := by
  simp [State.command, h, ha, hb, State.raise_of_ne]

theorem State.command_seq (accepts : BitVec 5 → Bool) (body : State → Except Fault State) (s : State)
    (h : s.stage ≠ stageErr) (ha : accepts s.stage = false) : s.command accepts body = s.faulted .seq := by
  simp [State.command, h, ha, State.raise_of_ne]

/-- What a pipeline command can leave: nothing new in stage `ERR`; in its own stage the body's state one stage on, or
the body's fault; `SEQ` in any other. -/
theorem State.pipeline_cases (k : BitVec 5) (body : State → Except Fault State) (s : State) :
    (s.stage = stageErr ∧ s.pipeline k body = s) ∨
    (s.stage ≠ stageErr ∧ s.stage = k ∧
      ((∃ t, body s = .ok t ∧ s.pipeline k body = t.setStage (k + 1#5)) ∨
       (∃ f, body s = .error f ∧ s.pipeline k body = s.faulted f))) ∨
    (s.stage ≠ stageErr ∧ s.stage ≠ k ∧ s.pipeline k body = s.faulted .seq) := by
  unfold State.pipeline
  rcases State.command_cases (fun x => x == k) (fun t => (body t).map (fun u => u.setStage (k + 1#5))) s with
    h | ⟨h, ha, hb⟩ | ⟨h, ha, hb⟩
  · exact .inl h
  · refine .inr (.inl ⟨h, by simpa using ha, ?_⟩)
    cases hs : body s with
    | ok t => exact .inl ⟨t, rfl, State.command_ok _ _ _ _ h ha (by simp [hs, Except.map])⟩
    | error f => exact .inr ⟨f, rfl, State.command_error _ _ _ _ h ha (by simp [hs, Except.map])⟩
  · exact .inr (.inr ⟨h, by simpa using ha, hb⟩)

theorem State.pipeline_ok (k : BitVec 5) (body : State → Except Fault State) (s t : State)
    (hk : k ≠ stageErr) (h : s.stage = k) (hb : body s = .ok t) : s.pipeline k body = t.setStage (k + 1#5) :=
  State.command_ok _ _ _ _ (by rw [h]; exact hk) (by simp [h]) (by simp [hb, Except.map])

theorem State.pipeline_error (k : BitVec 5) (body : State → Except Fault State) (s : State) (f : Fault)
    (hk : k ≠ stageErr) (h : s.stage = k) (hb : body s = .error f) : s.pipeline k body = s.faulted f :=
  State.command_error _ _ _ _ (by rw [h]; exact hk) (by simp [h]) (by simp [hb, Except.map])

/-! ## The chain of `ENCODE` -/

@[simp] theorem runChain_nil (s : State) : runChain s [] = s := rfl

theorem runChain_cons (s : State) (f : State → State) (fs : List (State → State)) :
    runChain s (f :: fs) = runChain (if s.stage = stageErr then s else f s) fs := rfl

/-- A chain that has faulted changes nothing more. -/
theorem runChain_err (s : State) (fs : List (State → State)) (h : s.stage = stageErr) : runChain s fs = s := by
  induction fs with
  | nil => rfl
  | cons f fs ih => rw [runChain_cons, if_pos h, ih]

/-! ## Every command answers a next state -/

/-- No command stops the machine: a fault of the block is a next state. -/
theorem exec_is_next (i : Instr) (s : State) : ∃ t, exec i s = .next t := by
  cases i <;> exact ⟨_, rfl⟩

end Sys2Proof.Machine
end

