-- ==== Sys2Proof/Laws/Access.lean ====
section
/-! SUPPORT. What one host transaction and one step can do. -/

namespace Sys2Proof.Machine

open Sys2Proof.Config

/-- A host read changes only what is returned, or is the fault `ACC`. -/
theorem State.memRead_cases (p : Params) (s : State) (space idx : Nat) :
    (illegalRead space idx = false ∧ ∃ r, s.memRead p space idx = s.respond r) ∨
    (illegalRead space idx = true ∧ ∃ r, s.memRead p space idx = (s.raise .acc).respond r) := by
  cases h : illegalRead space idx with
  | false => exact .inl ⟨rfl, _, by simp [State.memRead, h]; rfl⟩
  | true => exact .inr ⟨rfl, _, by simp [State.memRead, h]; rfl⟩

/-- The issue of a word: nothing in stage `ERR` but `CLR`; else the command it decodes to, or `ILL`. -/
theorem issue_cases (w : Word) (s : State) :
    (s.stage = stageErr ∧ w ≠ clrWord ∧ issue w s = .next s) ∨
    (s.stage = stageErr ∧ w = clrWord ∧ issue w s = exec .clr s) ∨
    (s.stage ≠ stageErr ∧ ∃ i, decode w = .ok i ∧ issue w s = exec i s) ∨
    (s.stage ≠ stageErr ∧ ∃ r, decode w = .error r ∧ issue w s = .next (s.faulted .ill)) := by
  by_cases h : s.stage = stageErr
  · by_cases hw : w = clrWord
    · exact .inr (.inl ⟨h, hw, by simp [issue, h, hw]⟩)
    · exact .inl ⟨h, hw, by simp [issue, h, hw]⟩
  · cases hd : decode w with
    | ok i => exact .inr (.inr (.inl ⟨h, i, rfl, by simp [issue, h, hd]⟩))
    | error r => exact .inr (.inr (.inr ⟨h, r, rfl, by simp [issue, h, hd, State.raise_of_ne]⟩))

/-- Outside stage `ERR`, a word that decodes is executed. -/
theorem issue_of_decode (w : Word) (s : State) (i : Instr) (h : s.stage ≠ stageErr) (hd : decode w = .ok i) :
    issue w s = exec i s := by
  simp [issue, h, hd]

/-- A legal write to `CMD` issues its value. -/
theorem memWrite_cmd (v : Nat) (s : State) (h : v < 2 ^ 32) : memWrite 0 0 v s = issue (BitVec.ofNat 32 v) s := by
  have e : s.illegalWrite 0 0 v = false := by
    simpa [State.illegalWrite, SpaceId.ofId, Reg.ofNumber] using h
  simp [memWrite, e, SpaceId.ofId]

theorem step_idle (s : State) (h : s.host = []) : step s = .next s := by simp [step, h]

theorem step_of_host (s : State) (op : HostOp) (rest : List HostOp) (h : s.host = op :: rest) :
    step s = perform op (s.takeOp rest) := by simp [step, h]

/-- The next transaction after `withFetchWord` is the write of that word to `CMD`. -/
theorem withFetchWord_host (s : State) (nbits w : Nat) :
    (s.withFetchWord nbits w).host = .write 0 0 (w % 2 ^ nbits) :: s.host := rfl

end Sys2Proof.Machine
end

