-- ==== Sys2Proof/Laws/Memory.lean ====
section
/-! SUPPORT. The laws of the address spaces: what a read sees after each operation, and that the canonical form and the
depth are kept. -/

namespace Sys2Proof.Machine

variable {w : Nat}

/-! ## Reads -/

@[simp] theorem Memory.read_nil (k : Nat) : Memory.read ([] : Memory w) k = none := rfl

@[simp] theorem Memory.read_cons (a : Nat) (x : BitVec w) (m : Memory w) (k : Nat) :
    Memory.read ((a, x) :: m) k = if k = a then some x else Memory.read m k := rfl

theorem Memory.read_put (m : Memory w) (k : Nat) (v : BitVec w) (j : Nat) :
    (m.put k v).read j = if j = k then some v else m.read j := by
  induction m with
  | nil => simp [Memory.put]
  | cons c m ih =>
    obtain ⟨a, x⟩ := c
    by_cases h : k < a
    · simp [Memory.put, h]
    · by_cases e : k = a
      · subst e
        by_cases hj : j = k <;> simp [Memory.put, hj]
      · by_cases hj : j = a
        · subst hj
          simp [Memory.put, h, e, Ne.symm e]
        · simp [Memory.put, h, e, hj, ih]

/-- A read after a write sees the value at its place and the old content everywhere else. -/
theorem Memory.read_write (depth : Nat) (m : Memory w) (k : Nat) (v : BitVec w) (j : Nat) :
    (m.write depth k v).read j = if j = k ∧ k < depth then some v else m.read j := by
  by_cases h : k < depth
  · simp [Memory.write, h, Memory.read_put]
  · simp [Memory.write, h]

@[simp] theorem Memory.read_write_same (depth : Nat) (m : Memory w) (k : Nat) (v : BitVec w) (h : k < depth) :
    (m.write depth k v).read k = some v := by
  simp [Memory.read_write, h]

theorem Memory.read_write_other (depth : Nat) (m : Memory w) (k : Nat) (v : BitVec w) (j : Nat) (h : j ≠ k) :
    (m.write depth k v).read j = m.read j := by
  simp [Memory.read_write, h]

theorem Memory.read_append (m m' : Memory w) (k : Nat) :
    Memory.read (m ++ m') k = (m.read k).or (m'.read k) := by
  induction m with
  | nil => simp
  | cons c m ih =>
    obtain ⟨a, x⟩ := c
    by_cases h : k = a <;> simp [h, ih]

theorem Memory.read_filter (m : Memory w) (f : Nat → Bool) (k : Nat) :
    Memory.read (m.filter (fun c => f c.1)) k = if f k then m.read k else none := by
  induction m with
  | nil => simp
  | cons c m ih =>
    obtain ⟨a, x⟩ := c
    by_cases ha : f a
    · by_cases hk : k = a
      · subst hk
        simp [ha]
      · simp [ha, hk, ih]
    · by_cases hk : k = a
      · subst hk
        simp [ha, ih]
      · simp [ha, hk, ih]

@[simp] theorem Memory.read_discardFrom (m : Memory w) (n k : Nat) :
    (m.discardFrom n).read k = if k < n then m.read k else none := by
  simpa [Memory.discardFrom] using Memory.read_filter m (fun a => decide (a < n)) k

@[simp] theorem Memory.read_keepFrom (m : Memory w) (n k : Nat) :
    (m.keepFrom n).read k = if n ≤ k then m.read k else none := by
  simpa [Memory.keepFrom] using Memory.read_filter m (fun a => decide (n ≤ a)) k

theorem Memory.read_number (base : Nat) (vs : List (BitVec w)) (k : Nat) :
    (Memory.number base vs).read k = if base ≤ k then vs[k - base]? else none := by
  induction vs generalizing base with
  | nil => simp [Memory.number]
  | cons v vs ih =>
    simp only [Memory.number, Memory.read_cons, ih]
    by_cases h : k = base
    · simp [h]
    · by_cases hb : base ≤ k
      · have h1 : base + 1 ≤ k := by omega
        have h2 : k - base = (k - (base + 1)) + 1 := by omega
        simp [h, hb, h1, h2]
      · have h1 : ¬ base + 1 ≤ k := by omega
        simp [h, hb, h1]

/-- A numbered list holds every element below its length. -/
theorem Memory.holdsBelow_number (vs : List (BitVec w)) (n : Nat) (h : n ≤ vs.length) :
    (Memory.number 0 vs).holdsBelow n = true := by
  simp only [Memory.holdsBelow, List.all_eq_true, List.mem_range]
  intro k hk
  have hk' : k < vs.length := by omega
  simp [Memory.read_number, hk']

/-- A range write within the depth puts the list's values at its places and leaves every other element alone. -/
theorem Memory.read_writeRange (depth : Nat) (m : Memory w) (base : Nat) (vs : List (BitVec w)) (k : Nat)
    (h : base + vs.length ≤ depth) :
    (m.writeRange depth base vs).read k =
      if base ≤ k ∧ k < base + vs.length then vs[k - base]? else m.read k := by
  have ht : vs.take (depth - base) = vs := List.take_of_length_le (by omega)
  simp only [Memory.writeRange, Memory.read_append, Memory.read_discardFrom, Memory.read_keepFrom,
    Memory.read_number, ht]
  by_cases h1 : k < base
  · simp [h1, Nat.not_le.mpr h1, show ¬ base + vs.length ≤ k by omega]
  · by_cases h2 : k < base + vs.length
    · simp [h1, show base ≤ k by omega, show k - base < vs.length by omega, h2]
    · simp [h1, show base ≤ k by omega, show ¬ k - base < vs.length by omega, h2,
        show base + vs.length ≤ k by omega]

/-! ## The canonical form -/

theorem Memory.wf_iff_pairwise (m : Memory w) : m.wf = true ↔ m.Pairwise (fun a b => a.1 < b.1) := by
  induction m with
  | nil => simp [Memory.wf]
  | cons a m ih =>
    cases m with
    | nil => simp [Memory.wf]
    | cons b m =>
      simp only [Memory.wf, Bool.and_eq_true, decide_eq_true_eq, ih, List.pairwise_cons, List.mem_cons,
        forall_eq_or_imp]
      constructor
      · rintro ⟨h, hb, hm⟩
        exact ⟨⟨h, fun x hx => lt_trans h (hb x hx)⟩, hb, hm⟩
      · rintro ⟨⟨h, _⟩, hb, hm⟩
        exact ⟨h, hb, hm⟩

theorem Memory.mem_put (m : Memory w) (k : Nat) (v : BitVec w) (c : Nat × BitVec w) (h : c ∈ m.put k v) :
    c = (k, v) ∨ c ∈ m := by
  induction m with
  | nil => simpa [Memory.put] using h
  | cons d m ih =>
    obtain ⟨a, x⟩ := d
    by_cases hk : k < a
    · simpa [Memory.put, hk] using h
    · by_cases e : k = a
      · have h' : c = (k, v) ∨ c ∈ m := by simpa [Memory.put, e] using h
        rcases h' with h' | h'
        · exact .inl h'
        · exact .inr (List.mem_cons_of_mem _ h')
      · have h' : c = (a, x) ∨ c ∈ Memory.put m k v := by simpa [Memory.put, hk, e] using h
        rcases h' with h' | h'
        · exact .inr (by simp [h'])
        · rcases ih h' with h'' | h''
          · exact .inl h''
          · exact .inr (List.mem_cons_of_mem _ h'')

theorem Memory.wf_put (m : Memory w) (k : Nat) (v : BitVec w) (h : m.wf = true) : (m.put k v).wf = true := by
  rw [Memory.wf_iff_pairwise] at *
  induction m with
  | nil => simp [Memory.put]
  | cons d m ih =>
    obtain ⟨a, x⟩ := d
    rw [List.pairwise_cons] at h
    by_cases hk : k < a
    · simp only [Memory.put, hk, if_true, List.pairwise_cons]
      refine ⟨?_, h.1, h.2⟩
      intro c hc
      rcases List.mem_cons.mp hc with rfl | hc
      · exact hk
      · exact lt_trans hk (h.1 c hc)
    · by_cases e : k = a
      · subst e
        simp only [Memory.put, lt_irrefl, if_false, if_true, List.pairwise_cons]
        exact h
      · simp only [Memory.put, hk, e, if_false, List.pairwise_cons]
        refine ⟨?_, ih h.2⟩
        intro c hc
        rcases Memory.mem_put m k v c hc with rfl | hc
        · simp only; omega
        · exact h.1 c hc

theorem Memory.within_put (depth : Nat) (m : Memory w) (k : Nat) (v : BitVec w) (hk : k < depth)
    (h : m.within depth = true) : (m.put k v).within depth = true := by
  simp only [Memory.within, List.all_eq_true, decide_eq_true_eq] at *
  intro c hc
  rcases Memory.mem_put m k v c hc with rfl | hc
  · exact hk
  · exact h c hc

theorem Memory.mem_number (base : Nat) (vs : List (BitVec w)) (c : Nat × BitVec w) (h : c ∈ Memory.number base vs) :
    base ≤ c.1 ∧ c.1 < base + vs.length := by
  induction vs generalizing base with
  | nil => simp [Memory.number] at h
  | cons v vs ih =>
    rcases List.mem_cons.mp h with rfl | h
    · simp
    · have := ih _ h
      simp only [List.length_cons]
      omega

theorem Memory.pairwise_number (base : Nat) (vs : List (BitVec w)) :
    (Memory.number base vs).Pairwise (fun a b => a.1 < b.1) := by
  induction vs generalizing base with
  | nil => simp [Memory.number]
  | cons v vs ih =>
    simp only [Memory.number, List.pairwise_cons]
    refine ⟨?_, ih _⟩
    intro c hc
    have := Memory.mem_number _ _ _ hc
    omega

theorem Memory.live_number (base : Nat) (vs : List (BitVec w)) :
    (Memory.number base vs).live = List.range' base vs.length := by
  induction vs generalizing base with
  | nil => simp [Memory.number, Memory.live]
  | cons v vs ih =>
    have := ih (base + 1)
    simp only [Memory.live] at this
    simp [Memory.number, Memory.live, this, List.range'_succ]

/-- A write keeps the canonical form and the depth. -/
theorem Memory.ok_write (depth : Nat) (m : Memory w) (k : Nat) (v : BitVec w) (h : m.ok depth = true) :
    (m.write depth k v).ok depth = true := by
  simp only [Memory.ok, Bool.and_eq_true] at *
  by_cases hk : k < depth
  · simp only [Memory.write, hk, if_true]
    exact ⟨Memory.wf_put m k v h.1, Memory.within_put depth m k v hk h.2⟩
  · simpa [Memory.write, hk] using h

/-- Discarding keeps the canonical form and the depth. -/
theorem Memory.ok_discardFrom (depth : Nat) (m : Memory w) (n : Nat) (h : m.ok depth = true) :
    (m.discardFrom n).ok depth = true := by
  simp only [Memory.ok, Memory.within, Bool.and_eq_true, Memory.wf_iff_pairwise, List.all_eq_true] at *
  refine ⟨h.1.filter _, ?_⟩
  intro c hc
  exact h.2 c (List.mem_of_mem_filter hc)

/-- A range write keeps the canonical form and the depth. -/
theorem Memory.ok_writeRange (depth : Nat) (m : Memory w) (base : Nat) (vs : List (BitVec w)) (h : m.ok depth = true) :
    (m.writeRange depth base vs).ok depth = true := by
  simp only [Memory.ok, Memory.within, Bool.and_eq_true, Memory.wf_iff_pairwise, List.all_eq_true,
    decide_eq_true_eq] at *
  have hnum : ∀ c ∈ Memory.number base (vs.take (depth - base)), base ≤ c.1 ∧ c.1 < base + vs.length ∧ c.1 < depth := by
    intro c hc
    have := Memory.mem_number _ _ _ hc
    have hl := List.length_take (i := depth - base) (l := vs)
    omega
  have hlow : ∀ c ∈ m.discardFrom base, c.1 < base ∧ c ∈ m := by
    intro c hc
    have := List.mem_filter.mp hc
    exact ⟨by simpa using this.2, this.1⟩
  have hhigh : ∀ c ∈ m.keepFrom (base + vs.length), base + vs.length ≤ c.1 ∧ c ∈ m := by
    intro c hc
    have := List.mem_filter.mp hc
    exact ⟨by simpa using this.2, this.1⟩
  refine ⟨?_, ?_⟩
  · refine List.pairwise_append.mpr ⟨h.1.filter _, ?_, ?_⟩
    · refine List.pairwise_append.mpr ⟨Memory.pairwise_number _ _, h.1.filter _, ?_⟩
      intro a ha b hb
      have := hnum a ha
      have := hhigh b hb
      omega
    · intro a ha b hb
      have h1 := hlow a ha
      rcases List.mem_append.mp hb with hb | hb
      · have := hnum b hb
        omega
      · have := hhigh b hb
        omega
  · intro c hc
    rcases List.mem_append.mp hc with hc | hc
    · exact h.2 c (hlow c hc).2
    · rcases List.mem_append.mp hc with hc | hc
      · exact (hnum c hc).2.2
      · exact h.2 c (hhigh c hc).2

/-- Stamping cells keeps the canonical form and the depth. -/
theorem ok_stamp (n : Nat) (m : Memory 1) (cells : List (Cell × Bit)) (h : m.ok Config.gridDepth = true) :
    (stamp n m cells).ok Config.gridDepth = true := by
  induction cells generalizing m with
  | nil => simpa [stamp] using h
  | cons c cells ih => exact ih _ (Memory.ok_write _ _ _ _ h)

/-- An element that no stamped cell names keeps its content. -/
theorem read_stamp_other (n : Nat) (m : Memory 1) (cells : List (Cell × Bit)) (k : Nat)
    (h : ∀ c ∈ cells, cellIndex n c.1 ≠ k) : (stamp n m cells).read k = m.read k := by
  induction cells generalizing m with
  | nil => rfl
  | cons c cells ih =>
    have h1 := h c (by simp)
    have h2 := ih (m.write Config.gridDepth (cellIndex n c.1) c.2) (fun d hd => h d (by simp [hd]))
    simpa [stamp, Memory.read_write_other _ _ _ _ _ (Ne.symm h1)] using h2

/-- Of the cells stamped, the last one that names an element gives its value. -/
theorem read_stamp_append (n : Nat) (m : Memory 1) (cells rest : List (Cell × Bit)) (c : Cell × Bit)
    (hd : cellIndex n c.1 < Config.gridDepth) (h : ∀ d ∈ rest, cellIndex n d.1 ≠ cellIndex n c.1) :
    (stamp n m (cells ++ c :: rest)).read (cellIndex n c.1) = some c.2 := by
  have e : stamp n m (cells ++ c :: rest) =
      stamp n ((stamp n m cells).write Config.gridDepth (cellIndex n c.1) c.2) rest := by
    simp [stamp]
  rw [e, read_stamp_other n _ rest _ h, Memory.read_write_same _ _ _ _ hd]

end Sys2Proof.Machine
end

