-- ==== Sys2Proof/Laws/PerInstr.lean ====
section
/-! SUPPORT. Statements about every command as syntax, one lemma per constructor. -/

namespace Sys2Proof.Laws

/-! ## The fields of the encoder's words -/

theorem reserved_wordN (op : Byte) : Format.n.reservedZero (wordN op) = true := by
  simp only [Format.reservedZero, wordN, beq_iff_eq]
  ext i hi
  simp
  omega

theorem reserved_wordA (op a : Byte) : Format.a.reservedZero (wordA op a) = true := by
  simp only [Format.reservedZero, wordA, wordN, beq_iff_eq]
  ext i hi
  have h : i < 24 := by omega
  simp [hi, h]

theorem reserved_wordAB (op a b : Byte) : Format.ab.reservedZero (wordAB op a b) = true := by
  simp only [Format.reservedZero, wordAB, wordA, wordN, beq_iff_eq]
  ext i hi
  have h1 : i < 24 := by omega
  have h2 : i < 16 := by omega
  simp [hi, h1, h2]

theorem aField_wordA (op a : Byte) : aField (wordA op a) = a := by
  simp only [aField, wordA, wordN]
  ext i hi
  have h1 : 16 + i < 24 := by omega
  have h2 : 16 + i < 32 := by omega
  simp [h1, h2, hi, BitVec.getLsbD_eq_getElem]

theorem aField_wordAB (op a b : Byte) : aField (wordAB op a b) = a := by
  simp only [aField, wordAB, wordA, wordN]
  ext i hi
  have h1 : 16 + i < 24 := by omega
  have h2 : 16 + i < 32 := by omega
  simp [h1, h2, hi, BitVec.getLsbD_eq_getElem, BitVec.getLsbD_of_ge _ (16 + i - 8) (by omega : 8 ≤ 16 + i - 8)]

theorem bField_wordAB (op a b : Byte) : bField (wordAB op a b) = b := by
  simp only [bField, wordAB, wordA, wordN]
  ext i hi
  have h1 : 8 + i < 24 := by omega
  have h2 : 8 + i < 32 := by omega
  have h3 : 8 + i < 16 := by omega
  simp [h1, h2, h3, hi, BitVec.getLsbD_eq_getElem]

/-! ## One statement about every command -/

namespace EncodeFields

/-- The format of each command (R94). -/
def format : Instr → Format
  | .gfmul _ _ | .gfadd _ _ => .ab
  | .genp _ | .pmull _ => .a
  | .nop | .clr | .encode | .vsel | .bser | .pack | .rsgen | .prem | .cat | .mclr | .pfind | .ptime | .pdark | .palign
  | .rfmt | .rver | .zplace | .mask | .wfmt | .wver => .n

/-- The operand fields of a word are the operands of the command (R93). -/
def operandsKept (w : Word) : Instr → Prop
  | .gfmul a b | .gfadd a b => aField w = a ∧ bField w = b
  | .genp a | .pmull a => aField w = a
  | .nop | .clr | .encode | .vsel | .bser | .pack | .rsgen | .prem | .cat | .mclr | .pfind | .ptime | .pdark | .palign
  | .rfmt | .rver | .zplace | .mask | .wfmt | .wver => True

/-- The encoder's word of a command has the reserved field of its format zero and its operands in place (R91, R93). -/
def Statement (i : Instr) : Prop := (format i).reservedZero (encode i) = true ∧ operandsKept (encode i) i

theorem nop : Statement .nop := ⟨reserved_wordN _, trivial⟩

theorem clr : Statement .clr := ⟨reserved_wordN _, trivial⟩

theorem encode : Statement .encode := ⟨reserved_wordN _, trivial⟩

theorem gfmul (a b : Byte) : Statement (.gfmul a b) :=
  ⟨reserved_wordAB _ a b, aField_wordAB _ a b, bField_wordAB _ a b⟩

theorem gfadd (a b : Byte) : Statement (.gfadd a b) :=
  ⟨reserved_wordAB _ a b, aField_wordAB _ a b, bField_wordAB _ a b⟩

theorem genp (a : Byte) : Statement (.genp a) := ⟨reserved_wordA _ a, aField_wordA _ a⟩

theorem pmull (a : Byte) : Statement (.pmull a) := ⟨reserved_wordA _ a, aField_wordA _ a⟩

theorem vsel : Statement .vsel := ⟨reserved_wordN _, trivial⟩

theorem bser : Statement .bser := ⟨reserved_wordN _, trivial⟩

theorem pack : Statement .pack := ⟨reserved_wordN _, trivial⟩

theorem rsgen : Statement .rsgen := ⟨reserved_wordN _, trivial⟩

theorem prem : Statement .prem := ⟨reserved_wordN _, trivial⟩

theorem cat : Statement .cat := ⟨reserved_wordN _, trivial⟩

theorem mclr : Statement .mclr := ⟨reserved_wordN _, trivial⟩

theorem pfind : Statement .pfind := ⟨reserved_wordN _, trivial⟩

theorem ptime : Statement .ptime := ⟨reserved_wordN _, trivial⟩

theorem pdark : Statement .pdark := ⟨reserved_wordN _, trivial⟩

theorem palign : Statement .palign := ⟨reserved_wordN _, trivial⟩

theorem rfmt : Statement .rfmt := ⟨reserved_wordN _, trivial⟩

theorem rver : Statement .rver := ⟨reserved_wordN _, trivial⟩

theorem zplace : Statement .zplace := ⟨reserved_wordN _, trivial⟩

theorem mask : Statement .mask := ⟨reserved_wordN _, trivial⟩

theorem wfmt : Statement .wfmt := ⟨reserved_wordN _, trivial⟩

theorem wver : Statement .wver := ⟨reserved_wordN _, trivial⟩

end EncodeFields

end Sys2Proof.Laws
end

