-- ==== Sys2Proof/Laws/Safety.lean ====
section
/-! SUPPORT. The invariant and its check are the same. -/

namespace Sys2Proof.Machine

/-- The memories of the reset state are canonical and inside their depths. -/
theorem State.reset_memoryOk : State.reset.MemoryOk := by decide

theorem State.soundCheck_iff (s : State) : s.soundCheck = true ↔ s.Sound := by
  constructor
  · intro h
    simp only [State.soundCheck, Bool.and_eq_true, decide_eq_true_eq] at h
    obtain ⟨⟨⟨⟨⟨⟨⟨⟨⟨h1, h2⟩, h3⟩, h4⟩, h5⟩, h6⟩, h7⟩, h8⟩, h9⟩, h10⟩ := h
    exact ⟨h1, h2, h3, h4, h5, h6, h7, h8, h9, h10⟩
  · rintro ⟨h1, h2, h3, h4, h5, h6, h7, h8, h9, h10⟩
    simp only [State.soundCheck, Bool.and_eq_true, decide_eq_true_eq]
    exact ⟨⟨⟨⟨⟨⟨⟨⟨⟨h1, h2⟩, h3⟩, h4⟩, h5⟩, h6⟩, h7⟩, h8⟩, h9⟩, h10⟩

end Sys2Proof.Machine
end

