-- ==== Sys2Proof/Tests/Slice0.lean ====
section
/-! SUPPORT. Tests whose expected values are the spec's (T<n> of 95_test_vectors.md, or the rule named), and a witness for
the hypotheses of every claim that has some. -/

namespace Sys2Proof.Tests

open Sys2Proof.Machine Sys2Proof.Claims

-- One theorem after another: each waiting one would hold a thread and its stack, past the memory limit.
set_option Elab.async false

/-! ## Helpers -/

/-- The next state of an outcome. -/
def after : Host.Outcome State Fault Refusal → Option State
  | .next s => some s
  | .fault _ => none
  | .refused _ => none

/-- A property of the next state. -/
def yields (o : Host.Outcome State Fault Refusal) (p : State → Bool) : Bool := (after o).any p

/-- What a host write issues. -/
def wr (space idx v : Nat) (s : State) : Host.Outcome State Fault Refusal := perform (.write space idx v) s

/-- The reset state in stage `k`. -/
def inStage (k : BitVec 5) : State := { State.reset with stage := k }

/-- Stage 0 with a payload. -/
def holding (payload : List Byte) : State :=
  { State.reset with
    len := some (BitVec.ofNat 16 payload.length)
    inp := Memory.number 0 payload }

/-- Stage `k` with the registers of version `v`, row by row of R40. -/
def sized (k : BitVec 5) (v tot ec dat : Nat) : State :=
  { State.reset with
    stage := k
    ver := some (BitVec.ofNat 4 v)
    size := some (BitVec.ofNat 6 (4 * v + 17))
    tot := some (BitVec.ofNat 9 tot)
    ec := some (BitVec.ofNat 5 ec)
    dat := some (BitVec.ofNat 9 dat) }

/-- Stage `k` at version 1, 2, 7, 10. -/
def v1 (k : BitVec 5) : State := sized k 1 19 7 12
def v2 (k : BitVec 5) : State := sized k 2 34 10 24
def v7 (k : BitVec 5) : State := sized k 7 156 20 136
def v10 (k : BitVec 5) : State := sized k 10 274 18 256

/-- A grid of `n` columns from row words, the leftmost column the most significant bit (95_test_vectors.md). -/
def grid (n : Nat) (rows : List Nat) : Memory 1 :=
  Memory.number 0 (rows.flatMap (fun w => (List.range n).map (fun c => BitVec.ofBool (w.testBit (n - 1 - c)))))

/-- `n` rows and columns of zeros. -/
def blank (n : Nat) : Memory 1 := Memory.number 0 (List.replicate (n * n) 0#1)

/-- The cells that hold a 1. -/
def ones (m : Memory 1) : Memory 1 := m.filter (fun x => x.2 == 1#1)

/-- The two version blocks of version 7, each row by row: rows 0 to 5 by columns 34 to 36, and the transposed places. -/
def versionBlocks (right left : List Bit) : Memory 1 :=
  ((List.range 6).flatMap (fun r => [45 * r + 34, 45 * r + 35, 45 * r + 36])).zip right ++
  ([34, 35, 36].flatMap (fun r => (List.range 6).map (fun c => 45 * r + c))).zip left

/-- The codewords of T13. -/
def dataA : List Byte := [0x40, 0x14, 0x10, 0xEC, 0x11, 0xEC, 0x11, 0xEC, 0x11, 0xEC, 0x11, 0xEC]
/-- The remainder of T13. -/
def parityA : List Byte := [0x44, 0xFF, 0x28, 0x86, 0xB8, 0x26, 0x23]
/-- The generator of degree 7 (T4, T13). -/
def gen7 : List Byte := [0x01, 0x7F, 0x7A, 0x9A, 0xA4, 0x0B, 0x44, 0x75]

/-- `RSV` of T30. -/
def reserved1 : List Nat :=
  [0x1FF0FF, 0x1FF0FF, 0x1FF0FF, 0x1FF0FF, 0x1FF0FF, 0x1FF0FF, 0x1FFFFF, 0x1FF0FF, 0x1FF0FF, 0x004000, 0x004000] ++
  [0x004000, 0x004000, 0x1FF000, 0x1FF000, 0x1FF000, 0x1FF000, 0x1FF000, 0x1FF000, 0x1FF000, 0x1FF000]
/-- `VAL` of T32. -/
def masked1 : List Nat :=
  [0x1FC57F, 0x104F41, 0x174E5D, 0x174F5D, 0x17445D, 0x104C41, 0x1FD57F, 0x000A00, 0x004800, 0x0AAA46, 0x155411] ++
  [0x0AAB44, 0x155555, 0x0019AA, 0x1FC6EF, 0x1049B8, 0x1746ED, 0x174A46, 0x174711, 0x104A46, 0x1FC757]
/-- `VAL` of T33, `lsb_first`. -/
def finished1 : List Nat :=
  [0x1FC57F, 0x104F41, 0x175E5D, 0x174F5D, 0x17445D, 0x104C41, 0x1FD57F, 0x001A00, 0x1DF8C4, 0x0AAA46, 0x155411] ++
  [0x0AAB44, 0x155555, 0x0019AA, 0x1FD6EF, 0x1059B8, 0x1756ED, 0x174A46, 0x175711, 0x105A46, 0x1FD757]
/-- `VAL` of T33, `string_order`. -/
def finishedString1 : List Nat :=
  [0x1FD57F, 0x105F41, 0x175E5D, 0x174F5D, 0x17545D, 0x105C41, 0x1FD57F, 0x001A00, 0x0478F7, 0x0AAA46, 0x155411] ++
  [0x0AAB44, 0x155555, 0x0019AA, 0x1FD6EF, 0x1049B8, 0x1746ED, 0x174A46, 0x175711, 0x104A46, 0x1FC757]

/-! ## WellFormed (R96) -/

theorem test_wellFormed_refuses_genp_31 : Instr.wellFormed (.genp 31#8) = false := by decide
theorem test_wellFormed_refuses_genp_255 : Instr.wellFormed (.genp 255#8) = false := by decide
theorem test_wellFormed_accepts_genp_30 : Instr.wellFormed (.genp 30#8) = true := by decide
theorem test_wellFormed_accepts_pmull_255 : Instr.wellFormed (.pmull 255#8) = true := by decide

/-! ## Decode: one word per command, bit by bit from R91 and R94 -/

theorem test_decode_nop : decode 0b00000000000000000000000000000000#32 = .ok .nop := by rfl
theorem test_decode_clr : decode 0b00000001000000000000000000000000#32 = .ok .clr := by rfl
theorem test_decode_encode : decode 0b00000010000000000000000000000000#32 = .ok .encode := by rfl
theorem test_decode_gfmul : decode 0b00010000010100111100101000000000#32 = .ok (.gfmul 0x53#8 0xCA#8) := by rfl
theorem test_decode_gfadd : decode 0b00010001010100111100101000000000#32 = .ok (.gfadd 0x53#8 0xCA#8) := by rfl
theorem test_decode_genp : decode 0b00010010000001110000000000000000#32 = .ok (.genp 7#8) := by rfl
theorem test_decode_pmull : decode 0b00010011100000010000000000000000#32 = .ok (.pmull 0x81#8) := by rfl
theorem test_decode_vsel : decode 0b00100000000000000000000000000000#32 = .ok .vsel := by rfl
theorem test_decode_bser : decode 0b00100001000000000000000000000000#32 = .ok .bser := by rfl
theorem test_decode_pack : decode 0b00100010000000000000000000000000#32 = .ok .pack := by rfl
theorem test_decode_rsgen : decode 0b00100011000000000000000000000000#32 = .ok .rsgen := by rfl
theorem test_decode_prem : decode 0b00100100000000000000000000000000#32 = .ok .prem := by rfl
theorem test_decode_cat : decode 0b00100101000000000000000000000000#32 = .ok .cat := by rfl
theorem test_decode_mclr : decode 0b00110000000000000000000000000000#32 = .ok .mclr := by rfl
theorem test_decode_pfind : decode 0b00110001000000000000000000000000#32 = .ok .pfind := by rfl
theorem test_decode_ptime : decode 0b00110010000000000000000000000000#32 = .ok .ptime := by rfl
theorem test_decode_pdark : decode 0b00110011000000000000000000000000#32 = .ok .pdark := by rfl
theorem test_decode_palign : decode 0b00110100000000000000000000000000#32 = .ok .palign := by rfl
theorem test_decode_rfmt : decode 0b00110101000000000000000000000000#32 = .ok .rfmt := by rfl
theorem test_decode_rver : decode 0b00110110000000000000000000000000#32 = .ok .rver := by rfl
theorem test_decode_zplace : decode 0b00110111000000000000000000000000#32 = .ok .zplace := by rfl
theorem test_decode_mask : decode 0b00111000000000000000000000000000#32 = .ok .mask := by rfl
theorem test_decode_wfmt : decode 0b00111001000000000000000000000000#32 = .ok .wfmt := by rfl
theorem test_decode_wver : decode 0b00111010000000000000000000000000#32 = .ok .wver := by rfl

/-- R95, T52: an unlisted opcode and nonzero reserved fields of each format. -/
theorem test_decode_rejects :
    decode 0x03000000#32 = .error (.unlistedOpcode 0x03#8) ∧ decode 0xFFFFFFFF#32 = .error (.unlistedOpcode 0xFF#8) ∧
    decode 0x20000001#32 = .error (.reservedNotZero 0x20#8) ∧
    decode 0x1053CA01#32 = .error (.reservedNotZero 0x10#8) ∧
    decode 0x12070100#32 = .error (.reservedNotZero 0x12#8) := ⟨rfl, rfl, rfl, rfl, rfl⟩

/-! ## One step per command -/

/-- T57. -/
theorem test_nop_changes_nothing : after (exec .nop (inStage 9#5)) = some (inStage 9#5) := by decide

/-- T55. -/
theorem test_clr_leaves_err : yields (exec .clr ((holding [0x41#8]).faulted .ovf))
    (fun t => t.status == 0#32 && t.len == some 0#16 && t.inp == []) = true := by decide

/-- T51. -/
theorem test_encode_out_of_stage : yields (exec .encode (inStage 3#5)) (fun t => t.status == 0x0000131F#32) = true := by
  decide

/-- T13: payload "A"; the last command leaves stage 17. -/
theorem test_encode_A : yields (exec .encode (holding [0x41#8]))
    (fun t => t.stage == 17#5 && t.rem == Memory.number 0 parityA) = true := by decide +kernel

/-- T2. -/
theorem test_gfmul_53_CA : (after (exec (.gfmul 0x53#8 0xCA#8) (inStage 0#5))).map State.p = some (some 0x8F#8) := by
  decide

/-- T2: the largest index that is ever read. -/
theorem test_gfmul_8E_8E : (after (exec (.gfmul 0x8E#8 0x8E#8) (inStage 17#5))).map State.p = some (some 0x47#8) := by
  decide

/-- T3. -/
theorem test_gfadd_53_CA : (after (exec (.gfadd 0x53#8 0xCA#8) (inStage 0#5))).map State.p = some (some 0x99#8) := by
  decide

/-- T4; what `GEN` held beyond the coefficients is discarded. -/
theorem test_genp_2 :
    yields (exec (.genp 2#8) { inStage 0#5 with gen := Memory.number 0 gen7, gdeg := some 7#5 })
      (fun t => t.gen == Memory.number 0 [0x01#8, 0x03#8, 0x02#8] && t.gdeg == some 2#5) = true := by decide +kernel

/-- T52. -/
theorem test_genp_31 : yields (exec (.genp 31#8) (inStage 0#5)) (fun t => t.status == 0x0000141F#32) = true := by decide

/-- R150, R151: from the generator of degree 29 to that of degree 30. -/
theorem test_pmul_to_degree_30 :
    pmul [0x01, 0xE4, 0xC1, 0xC4, 0x30, 0xAA, 0x56, 0x50, 0xD9, 0x36, 0x8F, 0x4F, 0x20, 0x58, 0xFF, 0x57, 0x18, 0x0F,
        0xFB, 0x55, 0x52, 0xC9, 0x3A, 0x70, 0xBF, 0x99, 0x6C, 0x84, 0x8F, 0xAA] (linearFactor 29) =
      [0x01, 0xD4, 0xF6, 0x4D, 0x49, 0xC3, 0xC0, 0x4B, 0x62, 0x05, 0x46, 0x67, 0xB1, 0x16, 0xD9, 0x8A, 0x33, 0xB5, 0xF6,
        0x48, 0x19, 0x12, 0x2E, 0xE4, 0x4A, 0xD8, 0xC3, 0x0B, 0x6A, 0x82, 0x96] := by decide +kernel

/-- T5. -/
theorem test_pmull_2 :
    yields (exec (.pmull 2#8) { inStage 0#5 with gen := Memory.number 0 [0x01#8, 0x03#8, 0x02#8], gdeg := some 2#5 })
      (fun t => t.gen == Memory.number 0 [0x01#8, 0x07#8, 0x0E#8, 0x08#8] && t.gdeg == some 3#5) = true := by
  decide +kernel

/-- T54. -/
theorem test_pmull_unwritten :
    yields (exec (.pmull 0#8) (inStage 0#5)) (fun t => t.status == 0x0000161F#32) = true := by decide

/-- T10, `LEN` = 22. -/
theorem test_vsel_22 : after (exec .vsel { State.reset with len := some 22#16 }) =
    some { v2 1#5 with len := some 22#16 } := by decide +kernel

/-- T50; with the other value of the parameter the length is accepted (T10). -/
theorem test_vsel_254 :
    yields (exec .vsel { State.reset with len := some 254#16 }) (fun t => t.status == 0x0000111F#32) = true ∧
    (vselWith { Config.params with v10MaxBytes := 271 } { State.reset with len := some 254#16 }).ver = some 10#4 := by
  decide +kernel

/-- T11, "A". -/
theorem test_bser_A : yields (exec .bser { v1 1#5 with len := some 1#16, inp := [(0, 0x41#8)] })
    (fun t => t.blen == some 24#12 && t.bs == grid 24 [0b010000000001010000010000]) = true := by decide +kernel

/-- T54. -/
theorem test_bser_unwritten : yields (exec .bser { v1 1#5 with len := some 2#16, inp := [(0, 0x41#8)] })
    (fun t => t.status == 0x0000161F#32) = true := by decide

/-- T12, "A". -/
theorem test_pack_A : yields (exec .pack { v1 2#5 with blen := some 24#12, bs := grid 24 [0b010000000001010000010000] })
    (fun t => t.ndc == some 12#9 && t.cw == Memory.number 0 dataA) = true := by decide +kernel

/-- T12, empty payload. -/
theorem test_pack_empty : yields (exec .pack { v1 2#5 with blen := some 16#12, bs := grid 16 [0x4000] })
    (fun t => t.cw == Memory.number 0
      [0x40, 0x00, 0xEC, 0x11, 0xEC, 0x11, 0xEC, 0x11, 0xEC, 0x11, 0xEC, 0x11]) = true := by decide +kernel

/-- T4, T13. -/
theorem test_rsgen_7 : yields (exec .rsgen { v1 3#5 with gen := Memory.number 0 [0x01#8, 0x01#8], gdeg := some 1#5 })
    (fun t => t.stage == 4#5 && t.gdeg == some 7#5 && t.gen == Memory.number 0 gen7) = true := by decide +kernel

/-- T13. -/
theorem test_prem_A :
    yields (exec .prem { v1 4#5 with ndc := some 12#9, cw := Memory.number 0 dataA, gen := Memory.number 0 gen7 })
      (fun t => t.rem == Memory.number 0 parityA) = true := by decide +kernel

/-- T15. -/
theorem test_prem_function :
    prem [0x12#8, 0x34#8, 0x56#8] [0x01#8, 0x03#8, 0x02#8] = [0x98#8, 0xE8#8] ∧
    prem [0x12#8, 0x36#8, 0x56#8] [0x01#8, 0x03#8, 0x02#8] = [0x96#8, 0xE4#8] := by decide +kernel

/-- T13. -/
theorem test_cat_A :
    yields (exec .cat { v1 5#5 with ndc := some 12#9, cw := Memory.number 0 dataA, rem := Memory.number 0 parityA })
      (fun t => t.nac == some 19#9 && t.cw == Memory.number 0 (dataA ++ parityA)) = true := by decide +kernel

/-- R181: version 1 has 441 cells. -/
theorem test_mclr_v1 : yields (exec .mclr { v1 6#5 with rsv := [(0, 1#1), (441, 1#1)] })
    (fun t => t.val.read 440 == some 0#1 && t.rsv.read 0 == some 0#1 && t.rsv.read 441 == none) = true := by
  decide +kernel

/-- T22, after `PFIND`. -/
theorem test_pfind_v2 : yields (exec .pfind (v2 7#5)) (fun t =>
    ones t.val == ones (grid 25 ([0x1FC007F, 0x1040041, 0x174005D, 0x174005D, 0x174005D, 0x1040041, 0x1FC007F] ++
      List.replicate 11 0 ++ [0x1FC0000, 0x1040000, 0x1740000, 0x1740000, 0x1740000, 0x1040000, 0x1FC0000])) &&
    t.val.live == t.rsv.live &&
    t.rsv == ones (grid 25 (List.replicate 8 0x1FE00FF ++ List.replicate 9 0 ++ List.replicate 8 0x1FE0000))) = true := by
  decide +kernel

/-- T22, after `PTIME`; columns 0 to 7 and 17 to 24 of row 6 are `PFIND`'s. -/
theorem test_ptime_v2 : yields (exec .ptime (v2 8#5)) (fun t =>
    ones t.val == ones (grid 25 (List.replicate 6 0 ++ [0x0015500, 0, 0x0040000, 0, 0x0040000, 0, 0x0040000, 0] ++
      [0x0040000, 0, 0x0040000])) &&
    t.val.live == t.rsv.live &&
    t.rsv == ones (grid 25 (List.replicate 6 0 ++ [0x001FF00, 0] ++ List.replicate 9 0x0040000))) = true := by
  decide +kernel

/-- T22, after `PDARK`: row 17, column 8. -/
theorem test_pdark_v2 : after (exec .pdark (v2 9#5)) =
    some { v2 10#5 with val := [(17 * 25 + 8, 1#1)], rsv := [(17 * 25 + 8, 1#1)] } := by decide +kernel

/-- T22, after `PALIGN`: of the four candidates only (18,18) is free, and columns 16 to 20 of rows 16 to 20 are written. -/
theorem test_palign_v2 :
    yields (exec .palign { v2 10#5 with rsv := [(156, 1#1), (168, 1#1), (456, 1#1), (468, 0#1)] }) (fun t =>
      ones t.val == ones (grid 25 (List.replicate 16 0 ++ [0x1F0, 0x110, 0x150, 0x110, 0x1F0])) &&
      t.val.live == [416, 417, 418, 419, 420, 441, 442, 443, 444, 445, 466, 467, 468, 469, 470] ++
        [491, 492, 493, 494, 495, 516, 517, 518, 519, 520] &&
      t.rsv.live == [156, 168] ++ t.val.live.take 10 ++ [456] ++ t.val.live.drop 10 &&
      t.rsv.read 468 == some 1#1) = true := by decide +kernel

/-- T22, after `RFMT`; row 8 without its timing cell. -/
theorem test_rfmt_v2 : yields (exec .rfmt (v2 11#5)) (fun t =>
    t.val == [] &&
    t.rsv == ones (grid 25 (List.replicate 6 0x0010000 ++ [0, 0x0010000, 0x1FB00FF] ++ List.replicate 9 0 ++
      List.replicate 7 0x0010000))) = true := by decide +kernel

/-- R196, T23. -/
theorem test_rver_v7 : yields (exec .rver (v7 12#5)) (fun t =>
    t.rsv == versionBlocks [1, 1, 1, 1, 1, 1, 1, 1, 1, 1, 1, 1, 1, 1, 1, 1, 1, 1]
      [1, 1, 1, 1, 1, 1, 1, 1, 1, 1, 1, 1, 1, 1, 1, 1, 1, 1]) = true := by decide +kernel

/-- R197: below version 7 nothing changes but the stage. -/
theorem test_rver_v2 : after (exec .rver (v2 12#5)) = some (v2 13#5) := by decide

/-- R211 to R213, by hand on nine rows and columns (so that few cells are read): columns 8 and 7 upward, then 5 and 4
downward; the byte 10110001 fills eight of the nine free cells, and neither the ninth nor a reserved cell changes. -/
theorem test_zplace :
    yields (exec .zplace { inStage 13#5 with
        size := some 9#6
        nac := some 1#9
        cw := [(0, 0b10110001#8)]
        val := grid 9 [0b000011000, 0, 0b000001000, 0, 0b000010000, 0, 0, 0, 0b000000011]
        rsv := grid 9 [0b111100111, 0b111100111, 0b111110111, 0b111111111, 0b111111111, 0b111111111, 0b111111111,
          0b111111100, 0b111111100] })
      (fun t => t.npl == some 8#12 && t.val == grid 9
        [0, 0b000010000, 0b000001000, 0, 0b000010000, 0, 0, 0b000000011, 0b000000001]) = true := by decide +kernel

/-- R225, R226, by hand on nine rows and columns (so that few cells are read), column 6 reserved, row 0 dark: in every row
the cells of the row's own parity are inverted, the reserved ones not. -/
theorem test_mask :
    yields (exec .mask { inStage 14#5 with
        size := some 9#6
        val := grid 9 [0b111111111, 0, 0, 0, 0, 0, 0, 0, 0]
        rsv := grid 9 (List.replicate 9 0b000000100) })
      (fun t => t.stage == 15#5 && t.val == grid 9
        [0b010101110, 0b010101010, 0b101010001, 0b010101010, 0b101010001, 0b010101010, 0b101010001, 0b010101010,
          0b101010001]) = true := by decide +kernel

/-- T33. -/
theorem test_wfmt_A : yields (exec .wfmt { v1 15#5 with val := grid 21 masked1 })
    (fun t => t.val == grid 21 finished1) = true := by decide +kernel

/-- T33, the other bit order. -/
theorem test_wfmt_string_order :
    (wfmtWith { Config.params with infoBitOrder := .stringOrder } { v1 15#5 with val := grid 21 masked1 }).val =
      grid 21 finishedString1 := by decide +kernel

/-- R233, version 7: rows 0 to 5 of the right block, rows 34 to 36 of the left one. -/
theorem test_wver_v7 : yields (exec .wver (v7 16#5)) (fun t =>
    t.val == versionBlocks [0, 0, 1, 0, 1, 0, 0, 1, 0, 0, 1, 1, 1, 1, 1, 0, 0, 0]
      [0, 0, 0, 0, 1, 0, 0, 1, 1, 1, 1, 0, 1, 0, 0, 1, 1, 0]) = true := by decide +kernel

/-- R232, T33: below version 7 nothing changes but the stage. -/
theorem test_wver_v1 : after (exec .wver (v1 16#5)) = some (v1 17#5) := by decide

/-! ## The host interface -/

/-- T2, with the word taken as the next host transaction. -/
theorem test_step_runs_word :
    yields (step (State.reset.withFetchWord 32 0x1053CA00)) (fun t => t.p == some 0x8F#8 && t.host == []) = true ∧
    decodeTableWord 32 0x1053CA00 = some (.gfmul 0x53#8 0xCA#8) := by decide +kernel

/-- T53. -/
theorem test_illegal_accesses :
    [HostOp.read 0 0, .write 0 1 0, .write 6 0 1, .read 0 14, .read 13 0, .read 12 3, .read 1 512, .read 8 511,
      .read 4 31, .write 0 2 0x10000, .write 1 0 0x100].all
      (fun op => yields (perform op State.reset) (fun t => t.status == 0x0000151F#32)) = true := by decide +kernel

/-- T53, T56: legal reads in every stage. -/
theorem test_legal_reads :
    [(HostOp.read 8 510, 1), (.read 12 0, 0x77C4), (.read 12 10, 0x0A4D3), (.read 10 5, 34), (.read 10 36, 253),
      (.read 11 24, 3), (.read 11 27, 38), (.read 11 0, 0), (.read 0 2, 0), (.read 0 1, 0)].all
      (fun x => yields (perform x.1 State.reset) (fun t => t.resp == some (BitVec.ofNat 32 x.2) && t.stage == 0#5)) =
      true := by decide +kernel

/-- T52: the reserved field is checked before the stage, and the stage before the operand range (T51). -/
theorem test_check_order :
    yields (wr 0 0 0x20000001 (inStage 5#5)) (fun t => t.status == 0x0000141F#32) = true ∧
    yields (wr 0 0 0x121F0000 (inStage 3#5)) (fun t => t.status == 0x0000131F#32) = true := by decide +kernel

/-- T55: in stage `ERR` only the word of `CLR` acts. -/
theorem test_err_stage :
    yields (wr 0 0 0x01000001 (State.reset.faulted .ovf)) (fun t => t.status == 0x0000111F#32) = true ∧
    yields (wr 0 2 1 (State.reset.faulted .ovf)) (fun t => t.status == 0x0000111F#32) = true ∧
    yields (wr 0 0 0x01000000 (State.reset.faulted .ovf)) (fun t => t.status == 0#32) = true := by decide +kernel

/-- T1. -/
theorem test_tables :
    [0, 1, 7, 8, 9, 25, 254, 255, 256, 508, 509, 510].map romExp =
      [0x01#8, 0x02, 0x80, 0x1D, 0x3A, 0x03, 0x8E, 0x01, 0x02, 0x47, 0x8E, 0x01].map some ∧
    [0x01, 0x02, 0x03, 0x04, 0x1D, 0x80, 0x8E, 0xFF].map romLog =
      [0#8, 1, 25, 2, 8, 7, 254, 175].map some := by decide +kernel

/-- R212, R218: the first and the last cells of an upward and of a downward pair. -/
theorem test_pair_cells :
    ((pairCells 21 (20, true)).take 3 = [(20, 20), (20, 19), (19, 20)] ∧
      (pairCells 21 (20, true)).drop 40 = [(0, 20), (0, 19)]) ∧
    ((pairCells 21 (5, false)).take 3 = [(0, 5), (0, 4), (1, 5)] ∧
      (pairCells 21 (5, false)).drop 40 = [(20, 5), (20, 4)]) := by
  decide +kernel

/-- T34, version 1. -/
theorem test_scan_order_v1 :
    [0, 1, 2, 23, 24, 151, 152, 183, 184, 207].map
        (fun j => (zigzagOrder 21 (fun x => !(reserved1.getD x.1 0).testBit (20 - x.2)))[j]?) =
      [(20, 20), (20, 19), (19, 20), (9, 19), (9, 18), (8, 9), (9, 10), (9, 7), (9, 5), (12, 0)].map some := by
  decide +kernel

/-! ## Witnesses: a state and operands that meet the hypotheses of each claim -/

/-- The command that the next witnesses issue. -/
theorem witness_DecodeAndEncodeAgree : decode 0x1053CA00#32 = .ok (.gfmul 0x53#8 0xCA#8) := by rfl

/-- R94, R95: below, between and above the listed opcodes, and each format's reserved field at its lowest and highest
bit. -/
theorem witness_UnlistedWordRaisesIll :
    State.reset.stage ≠ 31#5 ∧
    [0x03000000#32, 0x0F000000#32, 0x14000000#32, 0x1F000000#32, 0x26000000#32, 0x2F000000#32, 0x3B000000#32,
      0xFFFFFFFF#32, 0x00000001#32, 0x3A800000#32, 0x12000001#32, 0x13008000#32, 0x10000001#32, 0x11000080#32].all
      (fun w => decide (¬ CommandWord w)) = true ∧
    (∀ w ∈ [1, 0x03000000, 0xFFFFFFFF], w < 2 ^ 32 ∧ ¬ CommandWord (BitVec.ofNat 32 w)) := by decide +kernel

theorem witness_StepRunsDecodedCommand :
    (State.reset.withFetchWord 32 0x1053CA00).host = HostOp.write 0 0 0x1053CA00 :: [] ∧ 0x1053CA00 < 2 ^ 32 ∧
    (State.reset.withFetchWord 32 0x1053CA00).stage ≠ 31#5 ∧
    decode (BitVec.ofNat 32 0x1053CA00) = .ok (.gfmul 0x53#8 0xCA#8) := ⟨rfl, by decide, by decide, rfl⟩

theorem witness_StepPerformsNextTransaction :
    { State.reset with host := [HostOp.read 0 1, .reset] }.host = HostOp.read 0 1 :: [.reset] ∧ State.reset.host = [] :=
  ⟨rfl, rfl⟩

/-- Stages 0, 17 and 31, for `NOP` and `CLR`. -/
theorem witness_NopChangesNothing :
    (inStage 0#5).LegalStage ∧ (inStage 17#5).LegalStage ∧ (inStage 31#5).LegalStage := by decide

theorem witness_ResetAndClrGiveResetValues :
    ((holding [0x41#8]).faulted .ovf).LegalStage ∧ (v2 12#5).LegalStage := by decide

theorem witness_StatusIsViewOfStageAndCode : (holding [0x41#8]).Sound ∧ ((holding [0x41#8]).faulted .ovf).Sound :=
  ⟨(State.soundCheck_iff _).1 (by decide +kernel), (State.soundCheck_iff _).1 (by decide +kernel)⟩

theorem witness_FieldCommandsWriteOnlyP : (inStage 0#5).stage.toNat ≤ 17 ∧ (inStage 17#5).stage.toNat ≤ 17 := by decide

theorem witness_GenpLoadsGenerator :
    State.reset.stage = 0#5 ∧ (0#8 : Byte).toNat ≤ 30 ∧ (30#8 : Byte).toNat ≤ 30 := by decide

/-- A constant polynomial, and the highest degree that `PMULL` takes. -/
theorem witness_PmullMultipliesByLinearFactor :
    (let s := { inStage 0#5 with gen := [(0, 1#8)], gdeg := some 0#5 }
     s.stage = 0#5 ∧ 0 ≤ 29 ∧ s.gdeg = some (BitVec.ofNat 5 0) ∧ s.gen.holdsBelow 1 = true ∧ s.gen.read 0 = some 1#8) ∧
    (let s := { inStage 0#5 with gen := Memory.number 0 (List.replicate 30 7#8), gdeg := some 29#5 }
     s.stage = 0#5 ∧ 29 ≤ 29 ∧ s.gdeg = some (BitVec.ofNat 5 29) ∧ s.gen.holdsBelow 30 = true ∧
       s.gen.read 29 = some 7#8 ∧ s.gen.read 28 = some 7#8) := by decide +kernel

/-- One witness for each clause: operands 31 and 255, no degree, degree 30, stage 1 and stage 17. -/
theorem witness_PolynomialCommandsFault :
    State.reset.stage = 0#5 ∧ 30 < (31#8 : Byte).toNat ∧ 30 < (255#8 : Byte).toNat ∧ State.reset.gdeg = none ∧
    { inStage 0#5 with gdeg := some 30#5 }.gdeg = some 30#5 ∧
    (inStage 1#5).stage ≠ 0#5 ∧ (inStage 1#5).stage ≠ 31#5 ∧ (inStage 17#5).stage ≠ 0#5 ∧ (inStage 17#5).stage ≠ 31#5 := by
  decide

theorem witness_GenpEqualsRepeatedPmull : State.reset.stage = 0#5 ∧ 0 ≤ 30 ∧ 30 ≤ 30 := by decide

/-- A nonzero element for the inverse, and a zero product. -/
theorem witness_FieldLaws : (1#8 : Byte) ≠ 0#8 ∧ (255#8 : Byte) ≠ 0#8 ∧ gfmul 0#8 5#8 = 0#8 := by decide

/-- Each clause at the ends of its range. -/
theorem witness_TablesFollowConstruction :
    (0 < 254 ∧ 253 < 254) ∧ (255 ≤ 255 ∧ 255 ≤ 510 ∧ 510 ≤ 510) ∧ 510 < 511 ∧ (0 ≤ 254 ∧ 254 ≤ 254) ∧
    (1 ≤ 1 ∧ 1 ≤ 255 ∧ 255 ≤ 255) := by decide

theorem witness_PmulIsConvolution :
    [1#8, 3#8, 2#8] ≠ [] ∧ [1#8, 4#8] ≠ [] ∧ 0 < [1#8, 3#8, 2#8].length + [1#8, 4#8].length - 1 ∧
    3 < [1#8, 3#8, 2#8].length + [1#8, 4#8].length - 1 := by decide

theorem witness_GeneratorRoots : 0 ≤ 30 ∧ 30 ≤ 30 ∧ 29 < 30 := by decide

theorem witness_ParityMakesMultipleOfGenerator : (1 ≤ 30 ∧ 0 < 1) ∧ 30 ≤ 30 ∧ 29 < 30 := by decide

theorem witness_ParityIsLinear : [0x12#8, 0x34#8].length = [0x56#8, 0x78#8].length ∧ 2 ≤ [1#8, 1#8].length := by decide

/-- Every row of R123 at both ends of its range. -/
theorem witness_VselSelectsVersionRow :
    ∀ row ∈ versionRanges, ∀ l ∈ [row.lo, row.hi],
      row.lo ≤ l ∧ l ≤ row.hi ∧ State.reset.stage = 0#5 ∧
      { State.reset with len := some (BitVec.ofNat 16 l) }.len = some (BitVec.ofNat 16 l) := by decide +kernel

theorem witness_OverlongPayloadRaisesOvf :
    ∀ l ∈ [254, 65535], 253 < l ∧ l < 2 ^ 16 ∧ State.reset.stage = 0#5 ∧
      { State.reset with len := some (BitVec.ofNat 16 l) }.len = some (BitVec.ofNat 16 l) := by decide

/-- The last byte of a payload unwritten, in stage 1 and in stage 0. -/
theorem witness_UnwrittenPayloadRaisesUninit :
    (1 < 2 ∧ 2 ≤ 253 ∧ { v1 1#5 with len := some 2#16, inp := [(0, 0x41#8)] }.len = some (BitVec.ofNat 16 2) ∧
      { v1 1#5 with len := some 2#16, inp := [(0, 0x41#8)] }.inp.read 1 = none ∧
      { v1 1#5 with len := some 2#16, inp := [(0, 0x41#8)] }.stage = 1#5) ∧
    (0 < 253 ∧ 253 ≤ 253 ∧ { State.reset with len := some 253#16 }.len = some (BitVec.ofNat 16 253) ∧
      { State.reset with len := some 253#16 }.inp.read 0 = none ∧
      { State.reset with len := some 253#16 }.stage = 0#5) := by decide

/-- The empty payload, one byte at version 9, and 253 bytes at version 10. -/
theorem witness_BserWritesBitStream :
    (let s := { v1 1#5 with len := some 0#16 }
     s.stage = 1#5 ∧ s.ver = some (BitVec.ofNat 4 1) ∧ PayloadHeld s 0) ∧
    (let s := { sized 1#5 9 232 30 202 with len := some 1#16, inp := [(0, 0x41#8)] }
     s.stage = 1#5 ∧ s.ver = some (BitVec.ofNat 4 9) ∧ PayloadHeld s 1) ∧
    (let s := { v10 1#5 with len := some 253#16, inp := Memory.number 0 (List.replicate 253 0x41#8) }
     s.stage = 1#5 ∧ s.ver = some (BitVec.ofNat 4 10) ∧ 253 ≤ 253 ∧ PayloadHeld s 253) := by decide +kernel

/-- Fewer codewords than `DAT`, and more. -/
theorem witness_PackSlicesAndPads :
    ∀ x ∈ [(16, 2, 12), (104, 13, 12)],
      (let s := { v1 2#5 with blen := some (BitVec.ofNat 12 x.1), bs := Memory.number 0 (List.replicate x.1 1#1) }
       s.stage = 2#5 ∧ x.1 < 2 ^ 12 ∧ s.blen = some (BitVec.ofNat 12 x.1) ∧ x.2.1 = x.1 / 8 ∧ x.2.2 < 2 ^ 9 ∧
         s.dat = some (BitVec.ofNat 9 x.2.2) ∧ s.bs.holdsBelow (8 * x.2.1) = true) := by decide +kernel

theorem witness_RsgenLoadsGenerator :
    ∀ e ∈ [0, 30], { inStage 3#5 with ec := some (BitVec.ofNat 5 e) }.stage = 3#5 ∧ e ≤ 30 ∧
      { inStage 3#5 with ec := some (BitVec.ofNat 5 e) }.ec = some (BitVec.ofNat 5 e) := by decide

theorem witness_PremLeavesRemainder :
    let s := { v1 4#5 with ndc := some 12#9, cw := Memory.number 0 dataA, gen := Memory.number 0 gen7 }
    s.stage = 4#5 ∧ 12 < 2 ^ 9 ∧ s.ndc = some (BitVec.ofNat 9 12) ∧ 1 ≤ 7 ∧ 7 ≤ 30 ∧ s.ec = some (BitVec.ofNat 5 7) ∧
      dataA.length = 12 ∧ (∀ k, k < 12 → s.cw.read k = dataA[k]?) ∧ gen7.length = 7 + 1 ∧
      (∀ k, k < 7 + 1 → s.gen.read k = gen7[k]?) := by decide +kernel

theorem witness_CatAppendsParity :
    let s := { v1 5#5 with ndc := some 12#9, rem := Memory.number 0 parityA }
    s.stage = 5#5 ∧ 12 + 7 < 2 ^ 9 ∧ s.ndc = some (BitVec.ofNat 9 12) ∧ 7 ≤ 30 ∧ s.ec = some (BitVec.ofNat 5 7) ∧
      s.rem.holdsBelow 7 = true := by decide +kernel

theorem witness_MclrBlanksBothGrids :
    ∀ n ∈ [0, 21, 57, 63], { inStage 6#5 with size := some (BitVec.ofNat 6 n) }.stage = 6#5 ∧ n < 2 ^ 6 ∧
      { inStage 6#5 with size := some (BitVec.ofNat 6 n) }.size = some (BitVec.ofNat 6 n) := by decide

/-- Versions 1 and 10, in the stage of each command that draws or reserves without reading the grids. -/
theorem witness_pattern_commands :
    ∀ k ∈ [7#5, 8#5, 9#5, 11#5, 12#5, 15#5, 16#5],
      ((v1 k).stage = k ∧ SizedFor (v1 k) 1) ∧ ((v10 k).stage = k ∧ SizedFor (v10 k) 10) := by decide

/-- No candidate (version 1), four (version 2), nine (version 10). -/
theorem witness_PalignStampsFreeCentres :
    ∀ v ∈ [1, 2, 10],
      (let s := { sized 10#5 v 0 0 0 with
         rsv := (coordinates v).flatMap (fun r => (coordinates v).map (fun c =>
           (r * (4 * v + 17) + c, if r = 6 ∨ c = 6 then 1#1 else 0#1))) }
       s.stage = 10#5 ∧ SizedFor s v ∧
         ∀ r ∈ coordinates v, ∀ c ∈ coordinates v,
           s.rsv.read (r * (4 * v + 17) + c) = some (if r = 6 ∨ c = 6 then 1#1 else 0#1)) := by decide +kernel

theorem witness_PalignSkipsReservedCentres :
    ∀ v ∈ [1, 2, 10],
      (let s := { sized 10#5 v 0 0 0 with
         rsv := (coordinates v).flatMap (fun r => (coordinates v).map (fun c => (r * (4 * v + 17) + c, 1#1))) }
       s.stage = 10#5 ∧ SizedFor s v ∧
         ∀ r ∈ coordinates v, ∀ c ∈ coordinates v, s.rsv.read (r * (4 * v + 17) + c) = some 1#1) := by decide +kernel

/-- With codewords and without. -/
theorem witness_ZplacePlacesBitsInScanOrder :
    (let s := { v1 13#5 with nac := some 19#9, cw := Memory.number 0 (dataA ++ parityA), rsv := blank 21 }
     s.stage = 13#5 ∧ SizedFor s 1 ∧ 19 < 2 ^ 9 ∧ s.nac = some (BitVec.ofNat 9 19) ∧ s.cw.holdsBelow 19 = true ∧
       s.rsv.holdsBelow ((4 * 1 + 17) * (4 * 1 + 17)) = true) ∧
    (let s := { v1 13#5 with nac := some 0#9, rsv := blank 21 }
     s.stage = 13#5 ∧ SizedFor s 1 ∧ 0 < 2 ^ 9 ∧ s.nac = some (BitVec.ofNat 9 0) ∧ s.cw.holdsBelow 0 = true ∧
       s.rsv.holdsBelow ((4 * 1 + 17) * (4 * 1 + 17)) = true) :=
  ⟨⟨rfl, by decide, by decide, rfl, by decide +kernel, Memory.holdsBelow_number _ _ List.length_replicate.ge⟩,
    ⟨rfl, by decide, by decide, rfl, by decide, Memory.holdsBelow_number _ _ List.length_replicate.ge⟩⟩

/-- Every cell free but column 6; the first and the last cell of a pair. -/
theorem witness_ScanOrderVisitsFreeCellsOnce :
    (∀ r : Nat, (fun x : Cell => decide (x.2 ≠ 6)) (r, 6) = false) ∧ 0 < 2 * 21 ∧ 41 < 2 * 21 :=
  ⟨fun _ => rfl, by decide, by decide⟩

theorem witness_MaskInvertsFreeEvenCells :
    let s := { v1 14#5 with val := blank 21, rsv := blank 21 }
    s.stage = 14#5 ∧ SizedFor s 1 ∧ s.rsv.holdsBelow ((4 * 1 + 17) * (4 * 1 + 17)) = true ∧
      s.val.holdsBelow ((4 * 1 + 17) * (4 * 1 + 17)) = true :=
  ⟨rfl, by decide, Memory.holdsBelow_number _ _ List.length_replicate.ge, Memory.holdsBelow_number _ _ List.length_replicate.ge⟩

/-- The empty payload and the longest one. -/
theorem witness_EncodeCompletesForAcceptedPayload :
    (⟨0, 17, 1, 21, 19, 7, 12⟩ ∈ versionRanges ∧ State.reset.stage = 0#5 ∧ PayloadHeld State.reset 0) ∧
    (⟨231, 253, 10, 57, 274, 18, 256⟩ ∈ versionRanges ∧ (holding (List.replicate 253 0x41#8)).stage = 0#5 ∧
      PayloadHeld (holding (List.replicate 253 0x41#8)) 253) := by decide +kernel

/-- Two states with the same payload and different leftovers; both encodes finish. -/
theorem witness_EncodeDependsOnPayloadAlone :
    let s₁ := holding [0x41#8]
    let s₂ := { holding [0x41#8] with p := some 7#8, gen := [(0, 1#8)], gdeg := some 0#5, draws := 5 }
    s₁.stage = 0#5 ∧ s₂.stage = 0#5 ∧ s₁.len = some 1#16 ∧ s₂.len = some 1#16 ∧
      (∀ k, k < (1#16 : BitVec 16).toNat → s₁.inp.read k = s₂.inp.read k) ∧
      ∃ t₁ t₂, exec .encode s₁ = .next t₁ ∧ exec .encode s₂ = .next t₂ ∧ t₁.stage = 17#5 ∧ t₂.stage = 17#5 :=
  ⟨rfl, rfl, rfl, rfl, fun _ _ => rfl, _, _, rfl, rfl, by decide +kernel, by decide +kernel⟩

/-- The same encode, and the empty one. -/
theorem witness_finished_symbols :
    (∃ t, (holding [0x41#8]).stage = 0#5 ∧ exec .encode (holding [0x41#8]) = .next t ∧ t.stage = 17#5) ∧
    ∃ t, State.reset.stage = 0#5 ∧ exec .encode State.reset = .next t ∧ t.stage = 17#5 :=
  ⟨⟨_, rfl, rfl, by decide +kernel⟩, ⟨_, rfl, rfl, by decide +kernel⟩⟩

/-- One for each clause. -/
theorem witness_StagesAcceptCommandsAsTabled :
    ((inStage 0#5).stage ≠ 31#5 ∧ (inStage 0#5).stage.toNat ∉ acceptedStages .pack) ∧
    ((inStage 17#5).stage ≠ 31#5 ∧ (inStage 17#5).stage.toNat ∉ acceptedStages .vsel) ∧
    ((inStage 18#5).stage ≠ 31#5 ∧ (inStage 18#5).stage.toNat ∉ acceptedStages .clr) ∧
    ((inStage 17#5).stage.toNat ∈ acceptedStages .clr ∧ ∃ t, exec .clr (inStage 17#5) = .next t) ∧
    ((inStage 0#5).stage.toNat ∈ acceptedStages .vsel ∧ ∃ t, exec .vsel (inStage 0#5) = .next t) ∧
    ((inStage 31#5).stage = 31#5 ∧ ∃ t, exec .clr (inStage 31#5) = .next t) :=
  ⟨by decide, by decide, by decide, ⟨by decide, _, rfl⟩, ⟨by decide, _, rfl⟩, ⟨rfl, _, rfl⟩⟩

theorem witness_ErrStageHoldsUntilClr :
    (State.reset.faulted .ovf).stage = 31#5 ∧ Instr.vsel ≠ .clr ∧ (0x01000001#32 : Word) ≠ 0x01000000#32 ∧
    ((0 : Nat) < 2 ^ 32 ∧ 0 ≠ 0x01000000) ∧ (0xFFFFFFFF < 2 ^ 32 ∧ 0xFFFFFFFF ≠ 0x01000000) ∧
    ¬ ((0 : Nat) = 0 ∧ (2 : Nat) = 0) ∧ 8 ≤ 12 ∧ content (State.reset.faulted .ovf) 12 0 = some 0x77C4 := by decide

/-- `PMULL` with nothing in `GEN`, and a long payload inside `ENCODE`. -/
theorem witness_FaultingCommandWritesNothingElse :
    (∃ t, exec (.pmull 0#8) State.reset = .next t ∧ State.reset.stage ≠ 31#5 ∧ t.stage = 31#5) ∧
    ∃ t, exec .encode { State.reset with len := some 254#16 } = .next t ∧ State.reset.stage ≠ 31#5 ∧ t.stage = 31#5 :=
  ⟨⟨_, rfl, by decide, by decide⟩, ⟨_, rfl, by decide, by decide +kernel⟩⟩

/-- A command that no clause about its registers excepts. -/
theorem witness_CommandsWriteOnlyTheirRegisters :
    ∃ t, exec (.gfadd 1#8 2#8) (v2 9#5) = .next t ∧ t.stage ≠ 31#5 ∧ Instr.gfadd 1#8 2#8 ≠ .clr :=
  ⟨_, rfl, by decide, by decide⟩

theorem witness_ReservationIsPermanent :
    ∃ t, Instr.rfmt ∉ [Instr.clr, .mclr, .encode] ∧ exec .rfmt { v2 11#5 with rsv := [(3, 1#1)] } = .next t ∧
      t.stage ≠ 31#5 ∧ { v2 11#5 with rsv := [(3, 1#1)] }.rsv.read 3 = some 1#1 :=
  ⟨_, by decide, rfl, by decide, rfl⟩

/-- For each of the two commands. -/
theorem witness_PlacementAndMaskKeepReservedCells :
    (∃ t, exec .zplace { v1 13#5 with nac := some 0#9, rsv := [(3, 1#1)] } = .next t ∧ t.stage ≠ 31#5 ∧
      { v1 13#5 with rsv := [(3, 1#1)] }.rsv.read 3 = some 1#1) ∧
    ∃ t, exec .mask { v1 14#5 with val := [(3, 1#1)], rsv := [(3, 1#1)] } = .next t ∧ t.stage ≠ 31#5 ∧
      { v1 14#5 with rsv := [(3, 1#1)] }.rsv.read 3 = some 1#1 :=
  ⟨⟨_, rfl, by decide, rfl⟩, ⟨_, rfl, by decide, rfl⟩⟩

/-- Each of R63 (a) to (f), at the ends of the ranges, `INFO[1]` and `INFO[6]` among them. -/
theorem witness_IllegalAccessRaisesAcc :
    (∀ x ∈ [(13, 0), (0, 14), (1, 512), (2, 4096), (3, 512), (4, 31), (5, 30), (6, 4096), (7, 4096), (8, 511), (9, 256),
      (10, 40), (11, 40), (12, 11), (12, 1), (12, 6), (0, 0)], IllegalRead x.1 x.2) ∧
    (∀ x ∈ [(13, 0, 0), (1, 512, 0), (12, 1, 0), (0, 1, 0), (0, 3, 0), (2, 0, 0), (8, 0, 0), (0, 2, 65536), (1, 0, 256),
      (0, 0, 4294967296)], IllegalWrite State.reset x.1 x.2.1 x.2.2) ∧
    IllegalWrite (inStage 1#5) 0 2 5 ∧ IllegalWrite (inStage 17#5) 1 0 0x41 ∧ IllegalWrite (inStage 31#5) 0 2 1 :=
  ⟨by decide, by decide, by decide, by decide, by decide⟩

/-- The first and the last element of every space, and the elements of `INFO` that exist. -/
theorem witness_LegalReadReturnsContent :
    ∀ x ∈ [(0, 1), (0, 13), (1, 0), (1, 511), (2, 0), (2, 4095), (3, 0), (3, 511), (4, 0), (4, 30), (5, 0), (5, 29),
      (6, 0), (6, 4095), (7, 0), (7, 4095), (8, 0), (8, 510), (9, 0), (9, 255), (10, 0), (10, 39), (11, 0), (11, 39),
      (12, 0), (12, 7), (12, 10)], ¬ IllegalRead x.1 x.2 := by decide

/-- A read that returns content, and one of an element that holds none; the first and the last row of each table of R40
and R41, an unused coordinate, and each element of `INFO`. -/
theorem witness_content :
    (content State.reset 0 2 = some 0 ∧ content State.reset 9 0 = none) ∧
    (vtabContent 1 0 = some 17 ∧ vtabContent 2 1 = some 34 ∧ vtabContent 10 0 = some 253 ∧ vtabContent 10 3 = some 256) ∧
    (atabContent 1 0 = some 0 ∧ atabContent 1 3 = some 0 ∧ atabContent 7 0 = some 3 ∧ atabContent 10 3 = some 50) ∧
    (infoContent 0 = some 0x77C4 ∧ infoContent 7 = some 0x07C94 ∧ infoContent 10 = some 0x0A4D3) := by decide

theorem witness_HostWritesPayload :
    State.reset.stage = 0#5 ∧ 65535 < 2 ^ 16 ∧ 511 < 512 ∧ 255 < 2 ^ 8 := by decide

/-- A command and a host write, each from a state that meets the invariant. -/
theorem witness_StepKeepsSound :
    (({ holding [0x41#8] with host := [HostOp.write 0 0 0x20000000] } : State).Sound ∧
      ∃ t, step { holding [0x41#8] with host := [HostOp.write 0 0 0x20000000] } = .next t) ∧
    (({ State.reset with host := [HostOp.write 1 511 0xFF] } : State).Sound ∧
      ∃ t, step { State.reset with host := [HostOp.write 1 511 0xFF] } = .next t) :=
  ⟨⟨(State.soundCheck_iff _).1 (by decide +kernel), _, rfl⟩, ⟨(State.soundCheck_iff _).1 (by decide +kernel), _, rfl⟩⟩

/-- In stage 0 with a polynomial in `GEN`, and in stage 2 of an encode of "A". -/
theorem witness_CommandsNeverUseDraws :
    (({ State.reset with gen := Memory.number 0 [0x01#8, 0x03#8, 0x02#8], gdeg := some 2#5 } : State).Sound ∧
      ∃ t, exec (.pmull 2#8) { State.reset with gen := Memory.number 0 [0x01#8, 0x03#8, 0x02#8], gdeg := some 2#5 } =
        .next t) ∧
    (({ v1 2#5 with
        len := some 1#16
        inp := [(0, 0x41#8)]
        blen := some 24#12
        bs := grid 24 [0b010000000001010000010000] } : State).Sound ∧
      ∃ t, exec .pack { v1 2#5 with
        len := some 1#16
        inp := [(0, 0x41#8)]
        blen := some 24#12
        bs := grid 24 [0b010000000001010000010000] } = .next t) :=
  ⟨⟨(State.soundCheck_iff _).1 (by decide +kernel), _, rfl⟩, ⟨(State.soundCheck_iff _).1 (by decide +kernel), _, rfl⟩⟩

end Sys2Proof.Tests
end

section
/-! SUPPORT. Range writes that do not see what stood there before, the lengths of the polynomials, the cells that
the scan and the mask visit, and the alignment centres of a version. -/

namespace Sys2Proof.Machine

open Sys2Proof.Config

/-! ## Range writes -/

section
variable {w : Nat}

/-- Below the depth, a range write is read back also where the list itself runs past the depth. -/
theorem Memory.read_writeRange_of_lt (depth : Nat) (m : Memory w) (base : Nat) (vs : List (BitVec w)) (k : Nat)
    (hk : k < depth) :
    (m.writeRange depth base vs).read k =
      if base ≤ k ∧ k < base + vs.length then vs[k - base]? else m.read k := by
  simp only [Memory.writeRange, Memory.read_append, Memory.read_discardFrom, Memory.read_keepFrom,
    Memory.read_number, List.getElem?_take]
  by_cases h1 : k < base
  · simp [h1, Nat.not_le.mpr h1, show ¬ base + vs.length ≤ k by omega]
  · have hb : base ≤ k := Nat.not_lt.mp h1
    by_cases h2 : k < base + vs.length
    · simp [h1, hb, h2, show k - base < depth - base by omega, show k - base < vs.length by omega]
    · simp [h1, hb, h2, Nat.not_lt.mp h2, show vs.length ≤ k - base by omega]

/-- A write from element 0 on, with everything behind it discarded, leaves nothing of the old content. -/
theorem Memory.discardFrom_writeRange_zero (depth : Nat) (m : Memory w) (vs : List (BitVec w)) (n : Nat)
    (hn : n ≤ vs.length) :
    (m.writeRange depth 0 vs).discardFrom n = (Memory.number 0 (vs.take depth)).discardFrom n := by
  have hlow : m.discardFrom 0 = [] := by simp [Memory.discardFrom]
  have hhigh : (m.keepFrom (0 + vs.length)).discardFrom n = [] := by
    simp only [Memory.keepFrom, Memory.discardFrom, List.filter_filter, List.filter_eq_nil_iff]
    intro c _
    simp only [Bool.and_eq_true, decide_eq_true_eq]
    omega
  calc (m.writeRange depth 0 vs).discardFrom n
      = (Memory.number 0 (vs.take depth)).discardFrom n ++ (m.keepFrom (0 + vs.length)).discardFrom n := by
        rw [Memory.writeRange, hlow, List.nil_append]
        exact List.filter_append ..
    _ = (Memory.number 0 (vs.take depth)).discardFrom n := by rw [hhigh, List.append_nil]

end

/-- Stamping never takes a value away. -/
theorem isSome_read_stamp (n : Nat) (m : Memory 1) (cells : List (Cell × Bit)) (k : Nat) (h : (m.read k).isSome) :
    ((stamp n m cells).read k).isSome := by
  induction cells generalizing m with
  | nil => exact h
  | cons c cells ih =>
    refine ih _ ?_
    rw [Memory.read_write]
    split
    · rfl
    · exact h

/-! ## Payloads -/

/-- Two functions that agree on a list collect the same values from it, or fail on it alike. -/
theorem mapM_congr {α β : Type} {f g : α → Option β} {xs : List α} (h : ∀ x ∈ xs, f x = g x) :
    xs.mapM f = xs.mapM g := by
  induction xs with
  | nil => rfl
  | cons x xs ih =>
    rw [List.mapM_cons, List.mapM_cons, h x List.mem_cons_self, ih fun y hy => h y (List.mem_cons_of_mem x hy)]

/-! ## Lengths of polynomials -/

@[simp] theorem length_addLeading (p q : Poly) : (addLeading p q).length = q.length := by
  induction p generalizing q with
  | nil => rfl
  | cons a p ih =>
    cases q with
    | nil => rfl
    | cons b q => simp [addLeading, ih]

@[simp] theorem length_pmul (p q : Poly) : (pmul p q).length = p.length + (q.length - 1) := by
  induction p with
  | nil => simp [pmul]
  | cons c p ih =>
    simp only [pmul, length_addLeading, List.length_cons, ih]
    omega

@[simp] theorem length_genpoly (n : Nat) : (genpoly n).length = n + 1 := by
  induction n with
  | zero => rfl
  | succ n ih => simp [genpoly, linearFactor, ih]

/-- A step of the division keeps a remainder that is at least as long as the divisor without its leading coefficient. -/
theorem le_length_rsStep (r gen : Poly) (c : Byte) (h : gen.length - 1 ≤ r.length) :
    gen.length - 1 ≤ (rsStep r gen c).length := by
  have hshift : gen.length - 1 ≤ (r.tail ++ [0#8]).length := by
    simp only [List.length_append, List.length_tail, List.length_singleton]
    omega
  unfold rsStep
  simp only
  split
  · simpa using hshift
  · exact hshift

theorem le_length_prem (data gen : Poly) : gen.length - 1 ≤ (prem data gen).length := by
  unfold prem
  refine List.foldlRecOn (motive := fun r : Poly => gen.length - 1 ≤ r.length) data _ ?_ ?_
  · simp
  · exact fun r hr c _ => le_length_rsStep r gen c hr

@[simp] theorem length_genList (s : State) (n : Nat) : (s.genList n).length = n := by simp [State.genList]

@[simp] theorem length_remList (s : State) (n : Nat) : (s.remList n).length = n := by simp [State.remList]

/-! ## Cells of the grid -/

theorem cellIndex_lt {n : Nat} {x : Cell} (hr : x.1 < n) (hc : x.2 < n) : cellIndex n x < n * n :=
  calc x.1 * n + x.2 < x.1 * n + n := Nat.add_lt_add_left hc _
    _ = (x.1 + 1) * n := (Nat.succ_mul _ _).symm
    _ ≤ n * n := Nat.mul_le_mul_right n hr

theorem mem_allCells {n : Nat} {x : Cell} (h : x ∈ allCells n) : x.1 < n ∧ x.2 < n := by
  simp only [allCells, List.mem_flatMap, List.mem_map, List.mem_range] at h
  obtain ⟨r, hr, c, hc, rfl⟩ := h
  exact ⟨hr, hc⟩

/-- No pair of columns lies right of the column that the scan starts from. -/
theorem columnPairs_le {fuel right : Nat} {up : Bool} {x : Nat × Bool} (h : x ∈ columnPairs fuel right up) :
    x.1 ≤ right := by
  induction fuel generalizing right up with
  | zero => simp [columnPairs] at h
  | succ fuel ih =>
    simp only [columnPairs] at h
    split at h
    · have hr : (if right = 6 then 5 else right) ≤ right := by split <;> omega
      rcases List.mem_cons.mp h with rfl | h
      · exact hr
      · exact (ih h).trans ((Nat.sub_le _ _).trans hr)
    · simp at h

theorem mem_pairCells {n : Nat} {p : Nat × Bool} {x : Cell} (h : x ∈ pairCells n p) : x.1 < n ∧ x.2 ≤ p.1 := by
  simp only [pairCells, List.mem_flatMap] at h
  obtain ⟨r, hr, hx⟩ := h
  have hrn : r < n := by
    split at hr
    · simpa using hr
    · simpa using hr
  simp only [List.mem_cons, List.not_mem_nil, or_false] at hx
  rcases hx with rfl | rfl
  · exact ⟨hrn, le_refl _⟩
  · exact ⟨hrn, Nat.sub_le _ _⟩

/-- The scan stays inside the grid. -/
theorem mem_scan {n : Nat} {x : Cell} (h : x ∈ (columnPairs n (n - 1) true).flatMap (pairCells n)) :
    x.1 < n ∧ x.2 < n := by
  obtain ⟨p, hp, hx⟩ := List.mem_flatMap.mp h
  have hcol := columnPairs_le hp
  obtain ⟨hrow, hle⟩ := mem_pairCells hx
  exact ⟨hrow, by omega⟩

/-- Two tests that agree inside the grid let the same cells pass. -/
theorem zigzagOrder_congr {n : Nat} {f g : Cell → Bool} (h : ∀ x : Cell, x.1 < n → x.2 < n → f x = g x) :
    zigzagOrder n f = zigzagOrder n g :=
  List.filter_congr fun x hx => h x (mem_scan hx).1 (mem_scan hx).2

/-! ## The tables -/

/-- `ATAB[k]` as a number; 0 where the element does not exist. -/
def atabNumber (k : Nat) : Nat := ((romAtab k).getD 0#6).toNat

/-- The candidate centres of version `v` (R190). -/
def versionCentres (v : Nat) : List Cell :=
  let coords := (List.range (atabNumber ((v - 1) * 4))).map (fun j => atabNumber ((v - 1) * 4 + 1 + j))
  coords.flatMap fun r => coords.map fun c => (r, c)

theorem State.atabAt_eq (s : State) {k : Nat} (hk : k < 40) : s.atabAt k = atabNumber k := by
  have hrows : ∀ k < 40, (romAtab k).isSome = true := by decide
  obtain ⟨v, hv⟩ := Option.isSome_iff_exists.mp (hrows k hk)
  rw [State.atabAt, atabNumber, hv]
  rfl

theorem atabNumber_count_le : ∀ v ∈ List.range' 1 10, atabNumber ((v - 1) * 4) ≤ 3 := by decide

/-- Of a version of R40, the candidate centres are those of the table, with no draw. -/
theorem State.alignmentCentres_eq (s : State) (hv : s.verN ∈ List.range' 1 10) :
    s.alignmentCentres = versionCentres s.verN := by
  have hrow := List.mem_range'_1.mp hv
  have hcount := atabNumber_count_le _ hv
  have hcoords : (List.range (atabNumber ((s.verN - 1) * 4))).map (fun j => s.atabAt ((s.verN - 1) * 4 + 1 + j)) =
      (List.range (atabNumber ((s.verN - 1) * 4))).map (fun j => atabNumber ((s.verN - 1) * 4 + 1 + j)) :=
    List.map_congr_left fun j hj => s.atabAt_eq (by have := List.mem_range.mp hj; omega)
  simp only [State.alignmentCentres, versionCentres, s.atabAt_eq (show (s.verN - 1) * 4 < 40 by omega), hcoords]

/-- Every candidate centre of R190 is a cell of its symbol. -/
theorem versionCentres_lt : ∀ v ∈ List.range' 1 10, ∀ x ∈ versionCentres v, x.1 < 4 * v + 17 ∧ x.2 < 4 * v + 17 := by
  decide

end Sys2Proof.Machine
end

section
/-! PROOFS. Two encodes side by side (R13, R14): what two states share after each command, and that the codeword
commands keep it. Each relation says that what later commands read is the same in both states and holds a value, so that
no draw enters (R23); what no command reads any more is only the same. -/

namespace Sys2Proof.Machine

open Sys2Proof.Config

/-! ## Values that two states share -/

/-- Both registers hold the same value. -/
def Held {w : Nat} (a b : Option (BitVec w)) : Prop := ∃ v, a = some v ∧ b = some v

/-- Below `n`, both spaces hold the same values. -/
def HeldBelow {w : Nat} (m m' : Memory w) (n : Nat) : Prop := ∀ k, k < n → Held (m.read k) (m'.read k)

/-- Two equal grids of `n` rows with a value in every cell. -/
def SameGrid (m m' : Memory 1) (n : Nat) : Prop := m = m' ∧ HeldBelow m m' (n * n)

section
variable {w : Nat} {s t : State}

theorem held_self_iff {a : Option (BitVec w)} : Held a a ↔ a.isSome = true := by
  simp [Held, Option.isSome_iff_exists]

theorem Held.eq {a b : Option (BitVec w)} (h : Held a b) : a = b := by
  obtain ⟨v, rfl, rfl⟩ := h
  rfl

theorem Held.operand {a b : Option (BitVec w)} (h : Held a b) (r : Reg) : s.operand r a = t.operand r b := by
  obtain ⟨v, rfl, rfl⟩ := h
  rfl

theorem Held.element {a b : Option (BitVec w)} (h : Held a b) (x : SpaceId) (k : Nat) :
    s.element x k a = t.element x k b := by
  obtain ⟨v, rfl, rfl⟩ := h
  rfl

/-- What was written from `base` on is the same in both spaces, whatever stood there. -/
theorem HeldBelow.writeRange {m m' : Memory w} {depth base n : Nat} (vs : List (BitVec w))
    (h : HeldBelow m m' base) (hd : n ≤ depth) (hn : n ≤ base + vs.length) :
    HeldBelow (m.writeRange depth base vs) (m'.writeRange depth base vs) n := by
  intro k hk
  rw [Memory.read_writeRange_of_lt _ _ _ _ _ (by omega), Memory.read_writeRange_of_lt _ _ _ _ _ (by omega)]
  by_cases hin : base ≤ k ∧ k < base + vs.length
  · have hlen : k - base < vs.length := by omega
    rw [if_pos hin, if_pos hin, held_self_iff, List.getElem?_eq_getElem hlen]
    rfl
  · rw [if_neg hin, if_neg hin]
    exact h k (by omega)

theorem heldBelow_zero (m m' : Memory w) : HeldBelow m m' 0 := fun _ hk => absurd hk (Nat.not_lt_zero _)

/-- The same up to a count kept in a register whose values all lie within the depth. -/
theorem HeldBelow.writeRange_counted {m m' : Memory w} {depth base width count : Nat} (vs : List (BitVec w))
    (h : HeldBelow m m' base) (hd : 2 ^ width ≤ depth) (hc : count ≤ base + vs.length) :
    HeldBelow (m.writeRange depth base vs) (m'.writeRange depth base vs) (BitVec.ofNat width count).toNat := by
  have hcount : (BitVec.ofNat width count).toNat ≤ count := (BitVec.toNat_ofNat _ _).trans_le (Nat.mod_le _ _)
  exact h.writeRange vs ((BitVec.isLt _).le.trans hd) (hcount.trans hc)

/-- A space rewritten from element 0 on and discarded behind: the same in both states, with all its values held. -/
theorem eq_and_heldBelow_rewritten (m m' : Memory w) {depth n : Nat} (vs : List (BitVec w)) (hd : n ≤ depth)
    (hn : n ≤ vs.length) :
    (m.writeRange depth 0 vs).discardFrom n = (m'.writeRange depth 0 vs).discardFrom n ∧
      HeldBelow ((m.writeRange depth 0 vs).discardFrom n) ((m'.writeRange depth 0 vs).discardFrom n) n := by
  refine ⟨?_, ?_⟩
  · rw [Memory.discardFrom_writeRange_zero _ m _ _ hn, Memory.discardFrom_writeRange_zero _ m' _ _ hn]
  · intro k hk
    rw [Memory.read_discardFrom, Memory.read_discardFrom, if_pos hk, if_pos hk]
    exact (heldBelow_zero m m').writeRange vs hd (by omega) k hk

theorem SameGrid.stamp {m m' : Memory 1} {n : Nat} (h : SameGrid m m' n) (i : Nat) (cells : List (Cell × Bit)) :
    SameGrid (stamp i m cells) (stamp i m' cells) n := by
  obtain ⟨rfl, hheld⟩ := h
  exact ⟨rfl, fun k hk => held_self_iff.mpr (isSome_read_stamp _ _ _ _ (held_self_iff.mp (hheld k hk)))⟩

/-- A cell of a full grid is read without a draw. -/
theorem SameGrid.rsvAt_eq {n : Nat} (h : SameGrid s.rsv t.rsv n) {x : Cell} (hr : x.1 < n) (hc : x.2 < n) :
    s.rsvAt n x.1 x.2 = t.rsvAt n x.1 x.2 :=
  (h.2 _ (cellIndex_lt hr hc)).element _ _

theorem SameGrid.valAt_eq {n : Nat} (h : SameGrid s.val t.val n) {x : Cell} (hr : x.1 < n) (hc : x.2 < n) :
    s.valAt n x.1 x.2 = t.valAt n x.1 x.2 :=
  (h.2 _ (cellIndex_lt hr hc)).element _ _

end

/-! ## What two states share after each command -/

/-- The same length, and the same payload below it, written or not. -/
def SameInput (s t : State) : Prop :=
  ∃ l, s.len = some l ∧ t.len = some l ∧ ∀ k, k < l.toNat → s.inp.read k = t.inp.read k

/-- The registers of R26 hold row `v` of the version table. -/
def State.Selects (s : State) (v : Nat) : Prop :=
  s.ver = some (BitVec.ofNat 4 v) ∧ s.size = some (BitVec.ofNat 6 (4 * v + 17)) ∧
  s.tot = some (BitVec.ofNat 9 (vtab params v 1)) ∧ s.ec = some (BitVec.ofNat 5 (vtab params v 2)) ∧
  s.dat = some (BitVec.ofNat 9 (vtab params v 3))

/-- The same version of R40 is selected. -/
def SameVersion (s t : State) : Prop := ∃ v, v ∈ List.range' 1 10 ∧ s.Selects v ∧ t.Selects v

/-- `BLEN`, and the stream below it. -/
def SameStream (s t : State) : Prop := Held s.blen t.blen ∧ HeldBelow s.bs t.bs s.blenN

/-- `NDC`, and the data codewords. -/
def SameData (s t : State) : Prop := Held s.ndc t.ndc ∧ HeldBelow s.cw t.cw s.ndcN

/-- The generator polynomial. -/
def SameGenerator (s t : State) : Prop := s.gdeg = t.gdeg ∧ s.gen = t.gen ∧ HeldBelow s.gen t.gen (s.ecN + 1)

/-- The parity. -/
def SameParity (s t : State) : Prop := s.rem = t.rem ∧ HeldBelow s.rem t.rem s.ecN

/-- `NAC`, and all the codewords. -/
def SameCodewords (s t : State) : Prop := Held s.nac t.nac ∧ HeldBelow s.cw t.cw s.nacN

/-- The two grids. -/
def SameGrids (s t : State) : Prop := SameGrid s.val t.val s.sizeN ∧ SameGrid s.rsv t.rsv s.sizeN

abbrev AfterVsel (s t : State) : Prop := SameInput s t ∧ SameVersion s t

abbrev AfterBser (s t : State) : Prop := SameVersion s t ∧ SameStream s t

abbrev AfterPack (s t : State) : Prop := SameVersion s t ∧ s.blen = t.blen ∧ SameData s t

abbrev AfterRsgen (s t : State) : Prop := AfterPack s t ∧ SameGenerator s t

abbrev AfterPrem (s t : State) : Prop := AfterRsgen s t ∧ SameParity s t

/-- From `CAT` on, of the codeword pipeline only the version and the codewords are read again. -/
abbrev AfterCat (s t : State) : Prop :=
  SameVersion s t ∧ s.blen = t.blen ∧ s.ndc = t.ndc ∧ s.gdeg = t.gdeg ∧ s.gen = t.gen ∧ s.rem = t.rem ∧
  SameCodewords s t

/-- From `MCLR` to `RVER`. -/
abbrev AfterMclr (s t : State) : Prop := AfterCat s t ∧ SameGrids s t

/-- From `ZPLACE` to `WVER`. -/
abbrev AfterZplace (s t : State) : Prop := AfterMclr s t ∧ s.npl = t.npl

/-! ## What commands read -/

section
variable {s t : State}

theorem SameVersion.verN_eq (h : SameVersion s t) : s.verN = t.verN := by
  obtain ⟨v, _, ⟨hs, _⟩, ht, _⟩ := h
  exact congrArg BitVec.toNat (Held.operand ⟨_, hs, ht⟩ .ver)

theorem SameVersion.sizeN_eq (h : SameVersion s t) : s.sizeN = t.sizeN := by
  obtain ⟨v, _, ⟨_, hs, _⟩, _, ht, _⟩ := h
  exact congrArg BitVec.toNat (Held.operand ⟨_, hs, ht⟩ .size)

theorem SameVersion.ecN_eq (h : SameVersion s t) : s.ecN = t.ecN := by
  obtain ⟨v, _, ⟨_, _, _, hs, _⟩, _, _, _, ht, _⟩ := h
  exact congrArg BitVec.toNat (Held.operand ⟨_, hs, ht⟩ .ec)

theorem SameVersion.datN_eq (h : SameVersion s t) : s.datN = t.datN := by
  obtain ⟨v, _, ⟨_, _, _, _, hs⟩, _, _, _, _, ht⟩ := h
  exact congrArg BitVec.toNat (Held.operand ⟨_, hs, ht⟩ .dat)

/-- A version of R40, with the size of R26. -/
theorem SameVersion.verN_mem (h : SameVersion s t) : s.verN ∈ List.range' 1 10 ∧ s.sizeN = 4 * s.verN + 17 := by
  obtain ⟨v, hv, ⟨hver, hsize, _⟩, _⟩ := h
  have hv' := List.mem_range'_1.mp hv
  have hverN : s.verN = v := by
    rw [State.verN, hver]
    exact (BitVec.toNat_ofNat _ _).trans (Nat.mod_eq_of_lt (by omega))
  have hsizeN : s.sizeN = 4 * v + 17 := by
    rw [State.sizeN, hsize]
    exact (BitVec.toNat_ofNat _ _).trans (Nat.mod_eq_of_lt (by omega))
  exact ⟨hverN ▸ hv, by rw [hverN, hsizeN]⟩

/-- The largest `ecCodewords` of R40 is 30. -/
theorem SameVersion.ecN_le (h : SameVersion s t) : s.ecN ≤ 30 := by
  obtain ⟨v, hv, ⟨_, _, _, hec, _⟩, _⟩ := h
  have hrows : ∀ v ∈ List.range' 1 10, (BitVec.ofNat 5 (vtab params v 2)).toNat ≤ 30 := by decide
  rw [State.ecN, hec]
  exact hrows v hv

theorem SameData.ndcN_eq (h : SameData s t) : s.ndcN = t.ndcN := congrArg BitVec.toNat (h.1.operand .ndc)

theorem SameCodewords.nacN_eq (h : SameCodewords s t) : s.nacN = t.nacN := congrArg BitVec.toNat (h.1.operand .nac)

theorem SameInput.lenV_eq (h : SameInput s t) : s.lenV = t.lenV := by
  obtain ⟨l, hs, ht, _⟩ := h
  exact Held.operand ⟨l, hs, ht⟩ .len

theorem SameInput.payload_eq (h : SameInput s t) : s.payload s.lenV.toNat = t.payload t.lenV.toNat := by
  rw [← h.lenV_eq]
  obtain ⟨l, hs, _, hinp⟩ := h
  have hl : s.lenV = l := by
    rw [State.lenV, hs]
    rfl
  rw [hl]
  exact mapM_congr fun k hk => hinp k (List.mem_range.mp hk)

theorem SameStream.blenN_eq (h : SameStream s t) : s.blenN = t.blenN := congrArg BitVec.toNat (h.1.operand .blen)

/-- A codeword of the stream is read without a draw. -/
theorem SameStream.streamCodeword_eq (h : SameStream s t) {k : Nat} (hk : 8 * k + 8 ≤ s.blenN) :
    s.streamCodeword k = t.streamCodeword k := by
  unfold State.streamCodeword
  refine congrArg (fun bits => BitVec.ofNat 8 (numberOfBits bits)) (List.map_congr_left fun i hi => ?_)
  have hi' := List.mem_range.mp hi
  exact (h.2 (8 * k + i) (by omega)).element .bs _

theorem AfterBser.dataCodewords_eq (h : AfterBser s t) : s.dataCodewords = t.dataCodewords := by
  obtain ⟨hver, hstream⟩ := h
  unfold State.dataCodewords
  simp only [← hstream.blenN_eq, ← hver.datN_eq]
  refine congrArg (· ++ _) (List.map_congr_left fun k hk => hstream.streamCodeword_eq ?_)
  have hk' := List.mem_range.mp hk
  omega

theorem HeldBelow.cwList_eq {n : Nat} (h : HeldBelow s.cw t.cw n) : s.cwList n = t.cwList n :=
  List.map_congr_left fun k hk => (h k (List.mem_range.mp hk)).element .cw k

theorem HeldBelow.genList_eq {n : Nat} (h : HeldBelow s.gen t.gen n) : s.genList n = t.genList n :=
  List.map_congr_left fun k hk => (h k (List.mem_range.mp hk)).element .gen k

theorem HeldBelow.remList_eq {n : Nat} (h : HeldBelow s.rem t.rem n) : s.remList n = t.remList n :=
  List.map_congr_left fun k hk => (h k (List.mem_range.mp hk)).element .rem k

end

/-! ## One body in two states -/

/-- Two bodies raise the same fault, or leave two states that `R` relates. -/
inductive SameOutcome (R : State → State → Prop) : Except Fault State → Except Fault State → Prop
  | ok {s t : State} (h : R s t) : SameOutcome R (.ok s) (.ok t)
  | error (f : Fault) : SameOutcome R (.error f) (.error f)

/-- Both states are in stage `ERR` with one code, or both are in stage `k` and related by `R`. -/
def EndsAlike (k : BitVec 5) (R : State → State → Prop) (s t : State) : Prop :=
  (s.stage = stageErr ∧ t.stage = stageErr ∧ s.errc = t.errc) ∨ (s.stage = k ∧ t.stage = k ∧ R s t)

/-- A command takes two states of stage `k` that `R` relates to two of stage `k'` that `R'` relates, or to one fault. -/
def StepAlike (k : BitVec 5) (R : State → State → Prop) (f : State → State) (k' : BitVec 5)
    (R' : State → State → Prop) : Prop :=
  ∀ s t, s.stage = k → t.stage = k → R s t → EndsAlike k' R' (f s) (f t)

/-- A pipeline command is alike in two states when its body is: no relation here speaks of the stage. -/
theorem stepAlike_pipeline {k k' : BitVec 5} {R R' : State → State → Prop} {body : State → Except Fault State}
    (hbody : ∀ s t, R s t → SameOutcome R' (body s) (body t)) (hk : k ≠ stageErr := by decide)
    (hk' : k + 1#5 = k' := by decide)
    (hstage : ∀ s t j, R' s t → R' (s.setStage j) (t.setStage j) := by exact fun _ _ _ h => h) :
    StepAlike k R (fun s => s.pipeline k body) k' R' := by
  subst hk'
  intro s t hs ht hR
  change EndsAlike (k + 1#5) R' (s.pipeline k body) (t.pipeline k body)
  have hout := hbody s t hR
  generalize hbs : body s = x at hout
  generalize hbt : body t = y at hout
  cases hout with
  | ok hR' =>
    right
    rw [State.pipeline_ok k body s _ hk hs hbs, State.pipeline_ok k body t _ hk ht hbt]
    exact ⟨rfl, rfl, hstage _ _ _ hR'⟩
  | error f =>
    left
    rw [State.pipeline_error k body s f hk hs hbs, State.pipeline_error k body t f hk ht hbt]
    exact ⟨rfl, rfl, rfl⟩

theorem vsel_alike : StepAlike 0#5 SameInput (vselWith params) 1#5 AfterVsel := by
  refine stepAlike_pipeline fun s t h => ?_
  unfold vselBody
  rw [← h.lenV_eq]
  cases hv : vsel params s.lenV.toNat with
  | none => exact .error .ovf
  | some v => exact .ok ⟨h, v, List.mem_of_find?_eq_some hv, ⟨rfl, rfl, rfl, rfl, rfl⟩, rfl, rfl, rfl, rfl, rfl⟩

theorem bser_alike : StepAlike 1#5 AfterVsel bserState 2#5 AfterBser := by
  refine stepAlike_pipeline fun s t ⟨hin, hver⟩ => ?_
  unfold bserBody
  rw [← hin.payload_eq, ← hin.lenV_eq, ← hver.verN_eq]
  cases s.payload s.lenV.toNat with
  | none => exact .error .uninit
  | some d =>
    exact .ok ⟨hver, ⟨_, rfl, rfl⟩, (heldBelow_zero _ _).writeRange_counted _ (le_refl _) (Nat.le_add_left _ _)⟩

theorem pack_alike : StepAlike 2#5 AfterBser packState 3#5 AfterPack := by
  refine stepAlike_pipeline fun s t h => ?_
  unfold packBody
  rw [← h.dataCodewords_eq]
  obtain ⟨hver, hblen, _⟩ := h
  exact .ok ⟨hver, hblen.eq, ⟨_, rfl, rfl⟩,
    (heldBelow_zero _ _).writeRange_counted _ (le_refl _) (Nat.le_add_left _ _)⟩

theorem rsgen_alike : StepAlike 3#5 AfterPack rsgenState 4#5 AfterRsgen := by
  refine stepAlike_pipeline fun s t ⟨hver, hrest⟩ => ?_
  unfold rsgenBody
  rw [← hver.ecN_eq]
  have hdepth : s.ecN + 1 ≤ genDepth := Nat.succ_le_succ hver.ecN_le
  exact .ok ⟨⟨hver, hrest⟩, rfl, eq_and_heldBelow_rewritten s.gen t.gen _ hdepth (length_genpoly _).ge⟩

theorem prem_alike : StepAlike 4#5 AfterRsgen premState 5#5 AfterPrem := by
  refine stepAlike_pipeline fun s t ⟨⟨hver, hblen, hdata⟩, hgen⟩ => ?_
  obtain ⟨_, hcw⟩ := id hdata
  obtain ⟨_, _, hcoeff⟩ := id hgen
  unfold premBody
  rw [← hdata.ndcN_eq, ← hver.ecN_eq, ← hcw.cwList_eq, ← hcoeff.genList_eq]
  have hlen : s.ecN ≤ (prem (s.cwList s.ndcN) (s.genList (s.ecN + 1))).length := by
    simpa using le_length_prem (s.cwList s.ndcN) (s.genList (s.ecN + 1))
  exact .ok ⟨⟨⟨hver, hblen, hdata⟩, hgen⟩, eq_and_heldBelow_rewritten s.rem t.rem _ hver.ecN_le hlen⟩

theorem cat_alike : StepAlike 5#5 AfterPrem catState 6#5 AfterCat := by
  refine stepAlike_pipeline fun s t ⟨⟨⟨hver, hblen, hdata⟩, hgdeg, hgen, _⟩, hrem, hparity⟩ => ?_
  unfold catBody
  rw [← hdata.ndcN_eq, ← hver.ecN_eq, ← hparity.remList_eq]
  obtain ⟨hndc, hcw⟩ := hdata
  have hcount : s.ndcN + s.ecN ≤ s.ndcN + (s.remList s.ecN).length := by rw [length_remList]
  exact .ok ⟨hver, hblen, hndc.eq, hgdeg, hgen, hrem, ⟨_, rfl, rfl⟩, hcw.writeRange_counted _ (le_refl _) hcount⟩

end Sys2Proof.Machine
end

section
/-! PROOFS. The matrix commands in two states, the chain of `ENCODE`, and the statement about its result (R14). -/

namespace Sys2Proof.Machine

open Sys2Proof.Config

/-! ## The grids -/

/-- A cleared grid holds 0 in each of its cells and shows nothing of the old one. -/
theorem sameGrid_blankGrid (m m' : Memory 1) {n : Nat} (hn : n * n ≤ gridDepth) :
    SameGrid (blankGrid n m) (blankGrid n m') n :=
  eq_and_heldBelow_rewritten m m' _ hn List.length_replicate.ge

theorem mclr_alike : StepAlike 6#5 AfterCat mclrState 7#5 AfterMclr := by
  refine stepAlike_pipeline fun s t ⟨hver, hrest⟩ => ?_
  unfold mclrBody
  rw [← hver.sizeN_eq]
  have hsize : s.sizeN ≤ 63 := Nat.le_of_lt_succ (BitVec.isLt _)
  have hdepth : s.sizeN * s.sizeN ≤ gridDepth := (Nat.mul_le_mul hsize hsize).trans (by decide)
  exact .ok ⟨⟨hver, hrest⟩, sameGrid_blankGrid _ _ hdepth, sameGrid_blankGrid _ _ hdepth⟩

section
variable {s t : State}

theorem AfterMclr.version (h : AfterMclr s t) : SameVersion s t := h.1.1

theorem AfterMclr.stampVal (h : AfterMclr s t) (cells : List (Cell × Bit)) :
    AfterMclr (s.setVal (stamp s.sizeN s.val cells)) (t.setVal (stamp t.sizeN t.val cells)) := by
  rw [← h.version.sizeN_eq]
  obtain ⟨hcat, hval, hrsv⟩ := h
  exact ⟨hcat, hval.stamp _ cells, hrsv⟩

theorem AfterMclr.flagRsv (h : AfterMclr s t) (cells : List Cell) :
    AfterMclr (s.setRsv (flag s.sizeN s.rsv cells)) (t.setRsv (flag t.sizeN t.rsv cells)) := by
  rw [← h.version.sizeN_eq]
  obtain ⟨hcat, hval, hrsv⟩ := h
  exact ⟨hcat, hval, hrsv.stamp _ _⟩

theorem AfterMclr.stampReserved (h : AfterMclr s t) (cells : List (Cell × Bit)) :
    AfterMclr (s.stampReserved cells) (t.stampReserved cells) :=
  (h.stampVal cells).flagRsv (cells.map Prod.fst)

end

theorem pfind_alike : StepAlike 7#5 AfterMclr pfindState 8#5 AfterMclr := by
  refine stepAlike_pipeline fun s t h => ?_
  unfold pfindBody
  rw [← h.version.sizeN_eq]
  exact .ok (h.stampReserved _)

theorem ptime_alike : StepAlike 8#5 AfterMclr ptimeState 9#5 AfterMclr := by
  refine stepAlike_pipeline fun s t h => ?_
  unfold ptimeBody
  rw [← h.version.sizeN_eq]
  exact .ok (h.stampReserved _)

theorem pdark_alike : StepAlike 9#5 AfterMclr pdarkState 10#5 AfterMclr := by
  refine stepAlike_pipeline fun s t h => ?_
  unfold pdarkBody
  rw [← h.version.verN_eq]
  exact .ok (h.stampReserved _)

theorem State.alignAt_sizeN (s : State) (x : Cell) : (s.alignAt x).sizeN = s.sizeN := by
  unfold State.alignAt
  split <;> rfl

theorem AfterMclr.alignAt {s t : State} (h : AfterMclr s t) {x : Cell} (hr : x.1 < s.sizeN) (hc : x.2 < s.sizeN) :
    AfterMclr (s.alignAt x) (t.alignAt x) := by
  obtain ⟨_, _, hrsv⟩ := id h
  unfold State.alignAt
  rw [← h.version.sizeN_eq, ← hrsv.rsvAt_eq hr hc]
  split
  · exact h
  · exact h.stampReserved _

theorem AfterMclr.foldl_alignAt {s t : State} (h : AfterMclr s t) (xs : List Cell)
    (hxs : ∀ x ∈ xs, x.1 < s.sizeN ∧ x.2 < s.sizeN) :
    AfterMclr (xs.foldl State.alignAt s) (xs.foldl State.alignAt t) := by
  induction xs generalizing s t with
  | nil => exact h
  | cons x xs ih =>
    obtain ⟨hr, hc⟩ := hxs x List.mem_cons_self
    refine ih (h.alignAt hr hc) fun y hy => ?_
    rw [s.alignAt_sizeN]
    exact hxs y (List.mem_cons_of_mem x hy)

theorem palign_alike : StepAlike 10#5 AfterMclr palignState 11#5 AfterMclr := by
  refine stepAlike_pipeline fun s t h => ?_
  obtain ⟨hv, hsize⟩ := h.version.verN_mem
  unfold palignBody
  rw [t.alignmentCentres_eq (h.version.verN_eq ▸ hv), ← h.version.verN_eq, s.alignmentCentres_eq hv]
  exact .ok (h.foldl_alignAt _ (hsize ▸ versionCentres_lt _ hv))

theorem rfmt_alike : StepAlike 11#5 AfterMclr rfmtState 12#5 AfterMclr := by
  refine stepAlike_pipeline fun s t h => ?_
  have hflag := h.flagRsv ((formatCells s.sizeN).map Prod.fst)
  unfold rfmtBody
  rw [← h.version.sizeN_eq] at hflag ⊢
  exact .ok hflag

theorem rver_alike : StepAlike 12#5 AfterMclr rverState 13#5 AfterMclr := by
  refine stepAlike_pipeline fun s t h => ?_
  have hflag := h.flagRsv ((versionCells s.sizeN).map Prod.fst)
  unfold rverBody
  rw [← h.version.verN_eq]
  rw [← h.version.sizeN_eq] at hflag ⊢
  by_cases h7 : 7 ≤ s.verN
  · rw [if_pos h7, if_pos h7]
    exact .ok hflag
  · rw [if_neg h7, if_neg h7]
    exact .ok h

theorem AfterMclr.placement_eq {s t : State} (h : AfterMclr s t) : s.placement = t.placement := by
  obtain ⟨⟨_, _, _, _, _, _, hcodewords⟩, _, hrsv⟩ := id h
  obtain ⟨_, hcw⟩ := id hcodewords
  have hcells : s.placementCells = t.placementCells := by
    unfold State.placementCells
    rw [← h.version.sizeN_eq]
    exact zigzagOrder_congr fun x hr hc => by rw [hrsv.rsvAt_eq hr hc]
  unfold State.placement State.placementBits
  rw [← hcells, ← hcodewords.nacN_eq, hcw.cwList_eq]

theorem zplace_alike : StepAlike 13#5 AfterMclr zplaceState 14#5 AfterZplace := by
  refine stepAlike_pipeline fun s t h => ?_
  unfold zplaceBody
  rw [← h.placement_eq]
  exact .ok ⟨h.stampVal _, rfl⟩

theorem AfterZplace.stampVal {s t : State} (h : AfterZplace s t) (cells : List (Cell × Bit)) :
    AfterZplace (s.setVal (stamp s.sizeN s.val cells)) (t.setVal (stamp t.sizeN t.val cells)) :=
  ⟨h.1.stampVal cells, h.2⟩

theorem AfterZplace.version {s t : State} (h : AfterZplace s t) : SameVersion s t := h.1.version

theorem AfterMclr.maskedCells_eq {s t : State} (h : AfterMclr s t) : s.maskedCells = t.maskedCells := by
  obtain ⟨_, hval, hrsv⟩ := id h
  unfold State.maskedCells
  rw [← h.version.sizeN_eq]
  have hcells : (allCells s.sizeN).filter (fun x => s.rsvAt s.sizeN x.1 x.2 == 0#1 && maskPredicate x) =
      (allCells s.sizeN).filter (fun x => t.rsvAt s.sizeN x.1 x.2 == 0#1 && maskPredicate x) :=
    List.filter_congr fun x hx => by rw [hrsv.rsvAt_eq (mem_allCells hx).1 (mem_allCells hx).2]
  rw [hcells]
  refine List.map_congr_left fun x hx => ?_
  obtain ⟨hr, hc⟩ := mem_allCells (List.mem_of_mem_filter hx)
  rw [hval.valAt_eq hr hc]

theorem mask_alike : StepAlike 14#5 AfterZplace maskState 15#5 AfterZplace := by
  refine stepAlike_pipeline fun s t h => ?_
  unfold maskBody
  rw [← h.1.maskedCells_eq]
  exact .ok (h.stampVal _)

theorem wfmt_alike : StepAlike 15#5 AfterZplace (wfmtWith params) 16#5 AfterZplace := by
  refine stepAlike_pipeline fun s t h => ?_
  have hstamp := h.stampVal (infoCells params (s.infoAt 0) 15 (formatCells s.sizeN))
  unfold wfmtBody
  rw [← h.version.sizeN_eq] at hstamp ⊢
  exact .ok hstamp

/-- `INFO` has a literal for every version that has version information (R42). -/
theorem infoAt_eq (s t : State) {v : Nat} (hv : v ∈ List.range' 1 10) (h7 : 7 ≤ v) : s.infoAt v = t.infoAt v := by
  have hrows : ∀ v ∈ List.range' 1 10, 7 ≤ v → (romInfo v).isSome = true := by decide
  exact (held_self_iff.mpr (hrows v hv h7)).element .info v

theorem wver_alike : StepAlike 16#5 AfterZplace (wverWith params) 17#5 AfterZplace := by
  refine stepAlike_pipeline fun s t h => ?_
  have hstamp := h.stampVal (infoCells params (s.infoAt s.verN) 18 (versionCells s.sizeN))
  obtain ⟨hv, _⟩ := h.version.verN_mem
  unfold wverBody
  rw [← h.version.verN_eq]
  rw [← h.version.sizeN_eq] at hstamp ⊢
  by_cases h7 : 7 ≤ s.verN
  · rw [if_pos h7, if_pos h7, ← infoAt_eq s t hv h7]
    exact .ok hstamp
  · rw [if_neg h7, if_neg h7]
    exact .ok h

/-! ## The chain of `ENCODE` in two states -/

/-- A chain of commands takes two states that are alike to two that are alike. -/
def ChainAlike (k : BitVec 5) (R : State → State → Prop) (fs : List (State → State)) (m : BitVec 5)
    (Q : State → State → Prop) : Prop :=
  ∀ s t, EndsAlike k R s t → EndsAlike m Q (runChain s fs) (runChain t fs)

theorem ChainAlike.nil (k : BitVec 5) (R : State → State → Prop) : ChainAlike k R [] k R := fun _ _ h => h

theorem ChainAlike.cons {k k' m : BitVec 5} {R R' Q : State → State → Prop} {f : State → State}
    {fs : List (State → State)} (hf : StepAlike k R f k' R') (hrest : ChainAlike k' R' fs m Q)
    (hk : k ≠ stageErr := by decide) : ChainAlike k R (f :: fs) m Q := by
  intro s t h
  rw [runChain_cons, runChain_cons]
  refine hrest _ _ ?_
  rcases h with ⟨hs, ht, hcode⟩ | ⟨hs, ht, hR⟩
  · rw [if_pos hs, if_pos ht]
    exact .inl ⟨hs, ht, hcode⟩
  · rw [if_neg (hs ▸ hk), if_neg (ht ▸ hk)]
    exact hf s t hs ht hR

/-- The seventeen commands of `ENCODE` (R111). -/
theorem pipelineStates_alike : ChainAlike 0#5 SameInput (pipelineStates params) stageDone AfterZplace :=
  .cons vsel_alike <| .cons bser_alike <| .cons pack_alike <| .cons rsgen_alike <| .cons prem_alike <|
  .cons cat_alike <| .cons mclr_alike <| .cons pfind_alike <| .cons ptime_alike <| .cons pdark_alike <|
  .cons palign_alike <| .cons rfmt_alike <| .cons rver_alike <| .cons zplace_alike <| .cons mask_alike <|
  .cons wfmt_alike <| .cons wver_alike <| .nil _ _

/-- In stage 0, `ENCODE` is the chain of its seventeen commands. -/
theorem exec_encode_of_stage {s : State} (h : s.stage = 0#5) :
    exec .encode s = .next (runChain s (pipelineStates params)) := by
  refine congrArg Host.Outcome.next (State.command_ok _ _ s _ ?_ ?_ rfl)
  · rw [h]
    decide
  · simp [h]

theorem exec_encode_alike {s₁ s₂ t₁ t₂ : State} (h₁ : s₁.stage = 0#5) (h₂ : s₂.stage = 0#5) (hin : SameInput s₁ s₂)
    (e₁ : exec .encode s₁ = .next t₁) (e₂ : exec .encode s₂ = .next t₂) : EndsAlike stageDone AfterZplace t₁ t₂ := by
  rw [exec_encode_of_stage h₁] at e₁
  rw [exec_encode_of_stage h₂] at e₂
  rw [← Host.Outcome.next.inj e₁, ← Host.Outcome.next.inj e₂]
  exact pipelineStates_alike s₁ s₂ (.inr ⟨h₁, h₂, hin⟩)

/-- Settles O45: both encodes end alike, and two states alike at stage 17 share the whole result of R118. -/
theorem encodeDependsOnPayloadAlone : Obligations.EncodeDependsOnPayloadAlone := by
  unfold Obligations.EncodeDependsOnPayloadAlone
  intro s₁ s₂ t₁ t₂ l h₁ h₂ hl₁ hl₂ hinp e₁ e₂
  rcases exec_encode_alike h₁ h₂ ⟨l, hl₁, hl₂, hinp⟩ e₁ e₂ with ⟨hs, ht, hcode⟩ | ⟨hs, ht, hR⟩
  · refine ⟨hs.trans ht.symm, fun _ => hcode, fun hdone => ?_⟩
    exact absurd (hs.symm.trans hdone) (by decide)
  · obtain ⟨⟨⟨hver, hblen, hndc, hgdeg, hgen, hrem, hnac, hcw⟩, hval, hrsv⟩, hnpl⟩ := hR
    refine ⟨hs.trans ht.symm, fun herr => absurd (hs.symm.trans herr) (by decide), fun _ => ?_⟩
    obtain ⟨v, _, ⟨hver₁, hsize₁, htot₁, hec₁, hdat₁⟩, hver₂, hsize₂, htot₂, hec₂, hdat₂⟩ := hver
    refine ⟨hver₁.trans hver₂.symm, hsize₁.trans hsize₂.symm, htot₁.trans htot₂.symm, hec₁.trans hec₂.symm,
      hdat₁.trans hdat₂.symm, hblen, hndc, hnac.eq, hnpl, hgdeg, ?_, hrem, hgen, hval.1, hrsv.1⟩
    intro k n hn hk
    have hnacN : t₁.nacN = n.toNat := by
      rw [State.nacN, hn]
      rfl
    exact (hcw k (hnacN ▸ hk)).eq

end Sys2Proof.Machine
end

section
/-! SUPPORT. The elements that hold a value (R23) after each operation on a space, and the sizes of what the codeword
commands write. -/

namespace Sys2Proof.Machine

open Sys2Proof.Config

/-! ## The elements that hold a value -/

section
variable {w : Nat}

theorem Memory.isSome_read_iff (m : Memory w) (k : Nat) : (m.read k).isSome = true ↔ k ∈ m.live := by
  induction m with
  | nil => simp [Memory.live]
  | cons c m ih =>
    obtain ⟨a, x⟩ := c
    have hlive : Memory.live ((a, x) :: m) = a :: Memory.live m := rfl
    rw [Memory.read_cons, hlive, List.mem_cons, ← ih]
    by_cases h : k = a
    · simp [h]
    · simp [h]

theorem Memory.wf_of_ok {depth : Nat} {m : Memory w} (h : m.ok depth = true) : m.wf = true := by
  rw [Memory.ok, Bool.and_eq_true] at h
  exact h.1

/-- In canonical form, the elements below `n` are listed exactly when they are the ones that hold a value. -/
theorem Memory.live_eq_range_iff {m : Memory w} (hwf : m.wf = true) (n : Nat) :
    m.live = List.range n ↔ ∀ k, (m.read k).isSome = true ↔ k < n := by
  constructor
  · intro h k
    rw [Memory.isSome_read_iff, h, List.mem_range]
  · intro h
    have hrising : m.live.Pairwise (· < ·) := List.pairwise_map.mpr ((Memory.wf_iff_pairwise m).mp hwf)
    exact hrising.eq_of_mem_iff List.pairwise_lt_range fun k => by
      rw [← Memory.isSome_read_iff, h, List.mem_range]

theorem Memory.isSome_read_of_live {m : Memory w} {n k : Nat} (h : m.live = List.range n) (hk : k < n) :
    (m.read k).isSome = true :=
  (Memory.isSome_read_iff m k).mpr (h ▸ List.mem_range.mpr hk)

/-- A list written over the end of what is held leaves no gap. -/
theorem Memory.live_writeRange {depth base n : Nat} {m : Memory w} {vs : List (BitVec w)} (hok : m.ok depth = true)
    (hlive : m.live = List.range n) (hbase : base ≤ n) (hn : n ≤ base + vs.length) (hd : base + vs.length ≤ depth) :
    (m.writeRange depth base vs).live = List.range (base + vs.length) := by
  rw [Memory.live_eq_range_iff (Memory.wf_of_ok (Memory.ok_writeRange depth m base vs hok))]
  rw [Memory.live_eq_range_iff (Memory.wf_of_ok hok)] at hlive
  intro k
  rw [Memory.read_writeRange _ _ _ _ _ hd]
  split
  · next hin => simp [show k - base < vs.length by omega, hin.2]
  · rw [hlive]
    omega

theorem Memory.discardFrom_number (base n : Nat) (vs : List (BitVec w)) :
    (Memory.number base vs).discardFrom (base + n) = Memory.number base (vs.take n) := by
  induction vs generalizing base n with
  | nil => simp [Memory.number, Memory.discardFrom]
  | cons v vs ih =>
    cases n with
    | zero =>
      refine List.filter_eq_nil_iff.mpr fun c hc => ?_
      have := Memory.mem_number _ _ _ hc
      simp only [decide_eq_true_eq]
      omega
    | succ n =>
      have htail := ih (base + 1) n
      rw [show base + 1 + n = base + (n + 1) by omega] at htail
      rw [List.take_succ_cons, Memory.number, Memory.number, ← htail]
      exact List.filter_cons_of_pos (by simp)

/-- A space rewritten from element 0 on and discarded behind holds the list's first values and nothing else. -/
theorem Memory.rewritten_eq_number {depth n : Nat} (m : Memory w) {vs : List (BitVec w)} (hn : n ≤ vs.length)
    (hd : n ≤ depth) : (m.writeRange depth 0 vs).discardFrom n = Memory.number 0 (vs.take n) := by
  have h := Memory.discardFrom_number 0 n (vs.take depth)
  rw [Nat.zero_add, List.take_take, Nat.min_eq_left hd] at h
  rw [Memory.discardFrom_writeRange_zero depth m vs n hn, h]

theorem Memory.live_rewritten {depth n : Nat} (m : Memory w) {vs : List (BitVec w)} (hn : n ≤ vs.length)
    (hd : n ≤ depth) : ((m.writeRange depth 0 vs).discardFrom n).live = List.range n := by
  rw [Memory.rewritten_eq_number m hn hd, Memory.live_number, List.length_take, Nat.min_eq_left hn,
    List.range_eq_range']

theorem Memory.ok_rewritten {depth n : Nat} {m : Memory w} (vs : List (BitVec w)) (h : m.ok depth = true) :
    ((m.writeRange depth 0 vs).discardFrom n).ok depth = true :=
  Memory.ok_discardFrom _ _ _ (Memory.ok_writeRange _ _ _ _ h)

theorem held_of_live {m : Memory w} {n : Nat} (h : m.live = List.range n) : HeldBelow m m n :=
  fun _ hk => held_self_iff.mpr (Memory.isSome_read_of_live h hk)

end

/-! ## Grids -/

/-- The cells lie in a grid of `n` rows. -/
def InGrid (n : Nat) (cells : List Cell) : Prop := ∀ x ∈ cells, x.1 < n ∧ x.2 < n

/-- A full grid stays exactly full when cells of it are stamped. -/
theorem live_stamp {n : Nat} {m : Memory 1} {cells : List (Cell × Bit)} (hok : m.ok gridDepth = true)
    (hlive : m.live = List.range (n * n)) (hcells : InGrid n (cells.map Prod.fst)) :
    (stamp n m cells).live = List.range (n * n) := by
  rw [Memory.live_eq_range_iff (Memory.wf_of_ok (ok_stamp n m cells hok))]
  rw [Memory.live_eq_range_iff (Memory.wf_of_ok hok)] at hlive
  intro k
  by_cases hk : k < n * n
  · simp only [hk, iff_true]
    exact isSome_read_stamp n m cells k ((hlive k).mpr hk)
  · have hother : ∀ c ∈ cells, cellIndex n c.1 ≠ k := by
      rintro c hc rfl
      obtain ⟨hr, hcol⟩ := hcells c.1 (List.mem_map_of_mem hc)
      exact hk (cellIndex_lt hr hcol)
    rw [read_stamp_other n m cells k hother, hlive]

theorem live_blankGrid {n : Nat} (m : Memory 1) (hn : n * n ≤ gridDepth) :
    (blankGrid n m).live = List.range (n * n) :=
  Memory.live_rewritten m List.length_replicate.ge hn

/-! ## What the cells of the patterns are -/

theorem inGrid_finderCells (n : Nat) : InGrid n ((finderCells n).map Prod.fst) := by
  intro x hx
  simp only [finderCells, finderCellsAt, List.mem_map, List.mem_flatMap, List.mem_filterMap,
    Option.ite_none_right_eq_some, Option.some.injEq] at hx
  obtain ⟨_, ⟨o, _, i, _, j, _, hin, rfl⟩, rfl⟩ := hx
  simp only
  omega

theorem inGrid_timingCells {n : Nat} (hn : 21 ≤ n) : InGrid n ((timingCells n).map Prod.fst) := by
  intro x hx
  simp only [timingCells, List.mem_map, List.mem_flatMap, List.mem_range'_1, List.mem_cons, List.not_mem_nil,
    or_false] at hx
  obtain ⟨_, ⟨i, hi, rfl | rfl⟩, rfl⟩ := hx
  · simp only
    omega
  · simp only
    omega

theorem inGrid_alignmentCells {n : Nat} {x : Cell} (hr : x.1 + 2 < n) (hc : x.2 + 2 < n) :
    InGrid n ((alignmentCells x).map Prod.fst) := by
  intro y hy
  simp only [alignmentCells, List.mem_map, List.mem_flatMap, List.mem_range] at hy
  obtain ⟨_, ⟨i, hi, j, hj, rfl⟩, rfl⟩ := hy
  simp only
  omega

theorem inGrid_formatCells {n : Nat} (hn : 21 ≤ n) : InGrid n ((formatCells n).map Prod.fst) := by
  have hfmt1 : ∀ x ∈ fmt1, x.1 < 9 ∧ x.2 < 9 := by decide
  have hfmt2 : InGrid n (fmt2 n) := by
    intro x hx
    simp only [fmt2, List.mem_append, List.mem_map, List.mem_range, List.mem_range'_1] at hx
    rcases hx with ⟨k, hk, rfl⟩ | ⟨k, hk, rfl⟩
    · simp only
      omega
    · simp only
      omega
  intro x hx
  simp only [formatCells, List.mem_map, List.mem_flatMap, List.mem_cons, List.not_mem_nil, or_false] at hx
  obtain ⟨_, ⟨p, hp, rfl | rfl⟩, rfl⟩ := hx
  · obtain ⟨hr, hc⟩ := hfmt1 _ (List.of_mem_zip (List.fst_mem_of_mem_zipIdx hp)).1
    exact ⟨hr.trans_le (by omega), hc.trans_le (by omega)⟩
  · exact hfmt2 _ (List.of_mem_zip (List.fst_mem_of_mem_zipIdx hp)).2

theorem inGrid_versionCells {n : Nat} (hn : 21 ≤ n) : InGrid n ((versionCells n).map Prod.fst) := by
  intro x hx
  simp only [versionCells, List.mem_map, List.mem_flatMap, List.mem_range, List.mem_cons, List.not_mem_nil,
    or_false] at hx
  obtain ⟨_, ⟨i, hi, rfl | rfl⟩, rfl⟩ := hx
  · simp only
    omega
  · simp only
    omega

/-- Every candidate centre of R190 has its pattern inside its symbol. -/
theorem versionCentres_margin :
    ∀ v ∈ List.range' 1 10, ∀ x ∈ versionCentres v, x.1 + 2 < 4 * v + 17 ∧ x.2 + 2 < 4 * v + 17 := by
  decide

/-! ## Sizes of what the codeword commands write -/

theorem length_of_mapM_eq_some {α β : Type} {f : α → Option β} {xs : List α} {ys : List β} (h : xs.mapM f = some ys) :
    ys.length = xs.length ∧ ∀ x ∈ xs, (f x).isSome = true := by
  induction xs generalizing ys with
  | nil =>
    obtain rfl : [] = ys := by simpa using h
    simp
  | cons x xs ih =>
    simp only [List.mapM_cons, Option.bind_eq_bind, Option.bind_eq_some_iff, Option.pure_def, Option.some.injEq] at h
    obtain ⟨y, hy, zs, hzs, rfl⟩ := h
    obtain ⟨hlen, hall⟩ := ih hzs
    exact ⟨by simp [hlen], List.forall_mem_cons.mpr ⟨by simp [hy], hall⟩⟩

/-- A payload is collected only when every byte of it was written (R126). -/
theorem State.payload_eq_some {s : State} {n : Nat} {d : List Byte} (h : s.payload n = some d) :
    d.length = n ∧ s.inp.holdsBelow n = true := by
  obtain ⟨hlen, hall⟩ := length_of_mapM_eq_some h
  exact ⟨hlen.trans List.length_range, List.all_eq_true.mpr hall⟩

@[simp] theorem length_bitsMsbFirst {w : Nat} (n : Nat) (x : BitVec w) : (bitsMsbFirst n x).length = n := by
  simp [bitsMsbFirst]

/-- The stream is a whole number of codewords, so that no padding bit is added (R125, R127). -/
theorem length_bitStream (v : Nat) (l : BitVec 16) (d : List Byte) :
    (bitStream v l d).length = 8 * streamCodewords v d.length := by
  have hpayload : (d.flatMap (bitsMsbFirst 8)).length = 8 * d.length := by
    simp [List.length_flatMap, Nat.mul_comm]
  have hstream : (streamBits v l d).length = 8 * streamCodewords v d.length := by
    simp only [streamBits, List.length_append, length_bitsMsbFirst, hpayload, List.length_cons, List.length_nil,
      countWidth, streamCodewords]
    split <;> omega
  have hpad : (8 - (streamBits v l d).length % 8) % 8 = 0 := by omega
  rw [bitStream, padToByte, hpad, List.replicate_zero, List.append_nil, hstream]

theorem length_dataCodewords (s : State) : s.dataCodewords.length = max (s.blenN / 8) s.datN := by
  simp only [State.dataCodewords, List.length_append, List.length_map, List.length_range]
  omega

end Sys2Proof.Machine
end

section
/-! PROOFS. The invariant of a run stage by stage: what a state of stage `k` of an encode holds, that this is what the
invariant says of a running stage, and that every command takes one stage's content to that of its next stage. -/

namespace Sys2Proof.Machine

open Sys2Proof.Config

/-! ## What a stage holds -/

/-- What the invariant says of a state in stage `k`, 0 to 17, with the stage as a number of its own: each field is what
one group of commands has left so far. -/
structure State.Built (k : Nat) (s : State) : Prop where
  memory : s.MemoryOk
  code : s.errc = 0#3
  length : s.len.isSome = true
  version : if k = 0 then s.ver = none ∧ s.size = none ∧ s.tot = none ∧ s.ec = none ∧ s.dat = none
    else 1 ≤ s.chosen ∧ s.Selects s.chosen
  stream : if k ≤ 1 then s.blen = none ∧ s.bs = []
    else s.inp.holdsBelow s.lengthN = true ∧
      s.blen = some (BitVec.ofNat 12 (8 * streamCodewords s.chosen s.lengthN)) ∧
      s.bs.live = List.range (8 * streamCodewords s.chosen s.lengthN)
  data : if k ≤ 2 then s.ndc = none else s.ndc = some (BitVec.ofNat 9 s.dataCount)
  total : if k ≤ 5 then s.nac = none else s.nac = some (BitVec.ofNat 9 (s.dataCount + s.parityCount))
  codewords : if k ≤ 2 then s.cw = []
    else if k ≤ 5 then s.cw.live = List.range s.dataCount
    else s.cw.live = List.range (s.dataCount + s.parityCount)
  generator : if k ≤ 3 then
      (s.gdeg.getD 0).toNat ≤ 30 ∧ s.gen.live = List.range ((s.gdeg.map (fun d => d.toNat + 1)).getD 0)
    else s.gdeg = some (BitVec.ofNat 5 s.parityCount) ∧ s.gen = Memory.number 0 (genpoly s.parityCount)
  parity : if k ≤ 4 then s.rem = [] else s.rem.live = List.range s.parityCount
  grids : if k ≤ 6 then s.val = [] ∧ s.rsv = []
    else s.val.live = List.range s.cellCount ∧ s.rsv.live = List.range s.cellCount
  placed : if k ≤ 13 then s.npl = none else s.npl.isSome = true

/-! ## The version table's bounds -/

theorem chosen_mem {s : State} (h : 1 ≤ s.chosen) :
    s.chosen ∈ List.range' 1 10 ∧ s.lengthN ≤ vtab params s.chosen 0 := by
  unfold State.chosen at h ⊢
  cases hv : vsel params s.lengthN with
  | none => simp [hv] at h
  | some v => exact ⟨List.mem_of_find?_eq_some hv, by simpa using List.find?_some hv⟩

theorem versionRow_bounds :
    ∀ v ∈ List.range' 1 10, vtab params v 0 ≤ 253 ∧ vtab params v 2 ≤ 30 ∧ vtab params v 3 ≤ 256 := by
  decide

theorem toNat_ofNat_of_lt {w x : Nat} (h : x < 2 ^ w) : (BitVec.ofNat w x).toNat = x :=
  (BitVec.toNat_ofNat _ _).trans (Nat.mod_eq_of_lt h)

theorem State.operand_toNat {w x : Nat} (s : State) (r : Reg) {v : Option (BitVec w)}
    (h : v = some (BitVec.ofNat w x)) (hx : x < 2 ^ w) : (s.operand r v).toNat = x := by
  rw [h]
  exact toNat_ofNat_of_lt hx

namespace State.Built

variable {s : State} {k : Nat}

theorem selected (h : s.Built k) (hk : k ≠ 0) : s.chosen ∈ List.range' 1 10 ∧ s.Selects s.chosen := by
  have hver := h.version
  rw [if_neg hk] at hver
  exact ⟨(chosen_mem hver.1).1, hver.2⟩

theorem bounds (h : s.Built k) (hk : k ≠ 0) :
    1 ≤ s.chosen ∧ s.chosen ≤ 10 ∧ streamCodewords s.chosen s.lengthN ≤ 256 ∧ s.parityCount ≤ 30 ∧
      s.dataCount ≤ 256 := by
  obtain ⟨hv, _⟩ := h.selected hk
  obtain ⟨hlow, hhigh⟩ := List.mem_range'_1.mp hv
  obtain ⟨_, hlen⟩ := chosen_mem hlow
  obtain ⟨hmax, hec, hdat⟩ := versionRow_bounds _ hv
  have hstream : streamCodewords s.chosen s.lengthN ≤ 256 := by
    unfold streamCodewords
    split <;> omega
  exact ⟨hlow, by omega, hstream, hec, max_le hstream hdat⟩

theorem verN_eq (h : s.Built k) (hk : k ≠ 0) : s.verN = s.chosen := by
  obtain ⟨_, hver, _⟩ := h.selected hk
  obtain ⟨_, hhigh, _⟩ := h.bounds hk
  exact s.operand_toNat .ver hver (by omega)

theorem sizeN_eq (h : s.Built k) (hk : k ≠ 0) : s.sizeN = 4 * s.chosen + 17 := by
  obtain ⟨_, _, hsize, _⟩ := h.selected hk
  obtain ⟨_, hhigh, _⟩ := h.bounds hk
  exact s.operand_toNat .size hsize (by omega)

theorem ecN_eq (h : s.Built k) (hk : k ≠ 0) : s.ecN = s.parityCount := by
  obtain ⟨_, _, _, _, hec, _⟩ := h.selected hk
  obtain ⟨_, _, _, hparity, _⟩ := h.bounds hk
  exact s.operand_toNat .ec hec (by omega)

theorem datN_eq (h : s.Built k) (hk : k ≠ 0) : s.datN = vtab params s.chosen 3 := by
  obtain ⟨hv, _, _, _, _, hdat⟩ := h.selected hk
  obtain ⟨_, _, hbound⟩ := versionRow_bounds _ hv
  exact s.operand_toNat .dat hdat (by omega)

theorem lenV_eq (h : s.Built k) : s.lenV.toNat = s.lengthN := by
  obtain ⟨l, hl⟩ := Option.isSome_iff_exists.mp h.length
  simp [State.lenV, State.lengthN, State.operand, hl]

theorem blenN_eq (h : s.Built k) (hk : 1 < k) : s.blenN = 8 * streamCodewords s.chosen s.lengthN := by
  have hstream := h.stream
  rw [if_neg (by omega)] at hstream
  obtain ⟨_, hblen, _⟩ := hstream
  obtain ⟨_, _, hbound, _⟩ := h.bounds (by omega)
  exact s.operand_toNat .blen hblen (by omega)

theorem ndcN_eq (h : s.Built k) (hk : 2 < k) : s.ndcN = s.dataCount := by
  have hndc := h.data
  rw [if_neg (by omega)] at hndc
  obtain ⟨_, _, _, _, hbound⟩ := h.bounds (by omega)
  exact s.operand_toNat .ndc hndc (by omega)

theorem nacN_eq (h : s.Built k) (hk : 5 < k) : s.nacN = s.dataCount + s.parityCount := by
  have hnac := h.total
  rw [if_neg (by omega)] at hnac
  obtain ⟨_, _, _, hparity, hdata⟩ := h.bounds (by omega)
  exact s.operand_toNat .nac hnac (by omega)

theorem size_bounds (h : s.Built k) (hk : k ≠ 0) : 21 ≤ s.sizeN ∧ s.sizeN * s.sizeN = s.cellCount ∧
    s.cellCount ≤ gridDepth := by
  obtain ⟨hlow, hhigh, _⟩ := h.bounds hk
  have hsize := h.sizeN_eq hk
  have hside : s.sizeN ≤ 64 := by omega
  have hcells : s.sizeN * s.sizeN = s.cellCount := by rw [hsize, State.cellCount]
  exact ⟨by omega, hcells, hcells ▸ Nat.mul_le_mul hside hside⟩

theorem setStage (h : s.Built k) (j : BitVec 5) : (s.setStage j).Built k :=
  ⟨h.memory, h.code, h.length, h.version, h.stream, h.data, h.total, h.codewords, h.generator, h.parity, h.grids,
    h.placed⟩

theorem setP (h : s.Built k) (v : Byte) : (s.setP v).Built k :=
  ⟨h.memory, h.code, h.length, h.version, h.stream, h.data, h.total, h.codewords, h.generator, h.parity, h.grids,
    h.placed⟩

end State.Built

/-! ## The invariant and the stages -/

theorem State.running_ne_err {s : State} (h : s.stage.toNat ≤ 17) : s.stage ≠ stageErr := by
  intro e
  rw [e] at h
  exact absurd h (by decide)

/-- In a running stage, the invariant gives what that stage holds. -/
theorem State.Sound.built {s : State} {k : Nat} (h : s.Sound) (hs : s.stage.toNat = k) (hk : k ≤ 17) : s.Built k := by
  subst hs
  have hrun := State.running_ne_err hk
  have reached : ∀ {j : Nat}, ¬ s.stage.toNat ≤ j → s.Reached (j + 1) := fun hj => ⟨by omega, hk⟩
  obtain ⟨hmem, _, ⟨_, _, hcode⟩, ⟨hempty, _⟩, ⟨hver0, hver⟩, ⟨hstr0, hstr⟩, ⟨hcw0, hndc, hnac0, hcw, hall⟩,
    ⟨hdeg, hgen, hgp⟩, ⟨hrem0, hrem⟩, ⟨hgrid0, hgrid, hnpl0, hnpl⟩⟩ := h
  constructor
  case memory => exact hmem
  case code => exact not_not.mp fun e => hrun (hcode.mpr e)
  case length => exact Option.isSome_iff_ne_none.mpr fun e => hrun (hempty.mpr e)
  case version =>
    exact ite_prop_iff_and.mpr ⟨fun h0 => hver0 (BitVec.eq_of_toNat_eq h0), fun h0 => hver ⟨by omega, hk⟩⟩
  case stream => exact ite_prop_iff_and.mpr ⟨hstr0, fun h1 => hstr (reached h1)⟩
  case data => exact ite_prop_iff_and.mpr ⟨fun h2 => (hcw0 h2).1, fun h2 => hndc (reached h2)⟩
  case total => exact ite_prop_iff_and.mpr ⟨hnac0, fun h5 => (hall (reached h5)).1⟩
  case codewords =>
    exact ite_prop_iff_and.mpr ⟨fun h2 => (hcw0 h2).2, fun h2 =>
      ite_prop_iff_and.mpr ⟨fun h5 => hcw ⟨reached h2, h5⟩, fun h5 => (hall (reached h5)).2⟩⟩
  case generator => exact ite_prop_iff_and.mpr ⟨fun _ => ⟨hdeg, hgen⟩, fun h3 => hgp (reached h3)⟩
  case parity => exact ite_prop_iff_and.mpr ⟨hrem0, fun h4 => hrem (reached h4)⟩
  case grids => exact ite_prop_iff_and.mpr ⟨hgrid0, fun h6 => hgrid (reached h6)⟩
  case placed => exact ite_prop_iff_and.mpr ⟨hnpl0, fun h13 => hnpl (reached h13)⟩

/-- The generator of a version meets what the invariant asks of any polynomial in `GEN`. -/
theorem generator_live {s : State} {e : Nat} (he : e ≤ 30) (hdeg : s.gdeg = some (BitVec.ofNat 5 e))
    (hgen : s.gen = Memory.number 0 (genpoly e)) :
    (s.gdeg.getD 0).toNat ≤ 30 ∧ s.gen.live = List.range ((s.gdeg.map (fun d => d.toNat + 1)).getD 0) := by
  have hval : (BitVec.ofNat 5 e).toNat = e := toNat_ofNat_of_lt (by omega)
  rw [hdeg, hgen, Memory.live_number, length_genpoly, Option.map_some, Option.getD_some, Option.getD_some, hval,
    List.range_eq_range']
  exact ⟨he, rfl⟩

/-- What a stage holds is all that the invariant asks of a running stage. -/
theorem State.Built.sound {s : State} {k : Nat} (h : s.Built k) (hs : s.stage.toNat = k) (hk : k ≤ 17) : s.Sound := by
  subst hs
  have hrun := State.running_ne_err hk
  have hlen := Option.isSome_iff_ne_none.mp h.length
  obtain ⟨hver0, hver⟩ := ite_prop_iff_and.mp h.version
  obtain ⟨hstr0, hstr⟩ := ite_prop_iff_and.mp h.stream
  obtain ⟨hndc0, hndc⟩ := ite_prop_iff_and.mp h.data
  obtain ⟨hnac0, hnac⟩ := ite_prop_iff_and.mp h.total
  obtain ⟨hcw0, hcw⟩ := ite_prop_iff_and.mp h.codewords
  obtain ⟨hdeg, hgen⟩ := ite_prop_iff_and.mp h.generator
  obtain ⟨hrem0, hrem⟩ := ite_prop_iff_and.mp h.parity
  obtain ⟨hgrid0, hgrid⟩ := ite_prop_iff_and.mp h.grids
  obtain ⟨hnpl0, hnpl⟩ := ite_prop_iff_and.mp h.placed
  have hpoly : (s.gdeg.getD 0).toNat ≤ 30 ∧ s.gen.live = List.range ((s.gdeg.map (fun d => d.toNat + 1)).getD 0) := by
    by_cases h3 : s.stage.toNat ≤ 3
    · exact hdeg h3
    · obtain ⟨_, _, _, hparity, _⟩ := h.bounds (by omega)
      exact generator_live hparity (hgen h3).1 (hgen h3).2
  have hcw' := fun h2 : ¬ s.stage.toNat ≤ 2 => ite_prop_iff_and.mp (hcw h2)
  constructor
  case memory => exact h.memory
  case stage => exact .inl hk
  case code =>
    refine ⟨?_, ?_, fun e => absurd e hrun, fun e => absurd h.code e⟩
    · rw [h.code]
      decide
    · rw [h.code]
      decide
  case empty => exact ⟨⟨fun e => absurd e hrun, fun e => absurd e hlen⟩, fun e => absurd e hrun⟩
  case selected => exact ⟨fun e => hver0 (by rw [e]; rfl), fun hr => hver (by have := hr.1; omega)⟩
  case stream => exact ⟨hstr0, fun hr => hstr (Nat.not_le.mpr hr.1)⟩
  case codewords =>
    exact ⟨fun h2 => ⟨hndc0 h2, hcw0 h2⟩, fun hr => hndc (Nat.not_le.mpr hr.1), hnac0,
      fun ⟨hr, h5⟩ => (hcw' (Nat.not_le.mpr hr.1)).1 h5,
      fun hr => ⟨hnac (Nat.not_le.mpr hr.1), (hcw' (by have := hr.1; omega)).2 (Nat.not_le.mpr hr.1)⟩⟩
  case generator => exact ⟨hpoly.1, hpoly.2, fun hr => hgen (Nat.not_le.mpr hr.1)⟩
  case parity => exact ⟨hrem0, fun hr => hrem (Nat.not_le.mpr hr.1)⟩
  case grids =>
    exact ⟨hgrid0, fun hr => hgrid (Nat.not_le.mpr hr.1), hnpl0, fun hr => hnpl (Nat.not_le.mpr hr.1)⟩

end Sys2Proof.Machine
end

section
/-! PROOFS. Every command, and with it every step, keeps the invariant. -/

namespace Sys2Proof.Machine

open Sys2Proof.Config

/-! ## States outside an encode -/

theorem faulted_not_reached (s : State) (f : Fault) (k : Nat) : ¬ (s.faulted f).Reached k := fun hr =>
  absurd hr.2 (by rw [State.faulted_stage]; decide)

/-- A fault entry leaves a sound state, for every code that a rule raises (R245, R243). -/
theorem sound_faulted (s : State) {f : Fault} (hf : f ≠ .tbl) : (s.faulted f).Sound := by
  have out := fun k => faulted_not_reached s f k
  have hcodes : f.code ≠ Fault.tbl.code ∧ f.code ≠ 7#3 ∧ f.code ≠ 0#3 := by
    cases f
    case tbl => exact absurd rfl hf
    all_goals decide
  obtain ⟨htbl, hseven, hzero⟩ := hcodes
  have hempty : (s.faulted f).DataEmpty :=
    ⟨rfl, rfl, rfl, rfl, rfl, rfl, rfl, rfl, rfl, rfl, rfl, rfl, rfl, rfl, rfl, rfl, rfl, rfl⟩
  constructor
  case memory => exact ⟨rfl, rfl, rfl, rfl, rfl, rfl, rfl⟩
  case stage => exact .inr rfl
  case code => exact ⟨htbl, hseven, fun _ => hzero, fun _ => rfl⟩
  case empty => exact ⟨⟨fun _ => rfl, fun _ => rfl⟩, fun _ => hempty⟩
  case selected => exact ⟨fun _ => ⟨rfl, rfl, rfl, rfl, rfl⟩, fun hr => absurd hr (out 1)⟩
  case stream => exact ⟨fun _ => ⟨rfl, rfl⟩, fun hr => absurd hr (out 2)⟩
  case codewords =>
    exact ⟨fun _ => ⟨rfl, rfl⟩, fun hr => absurd hr (out 3), fun _ => rfl, fun hr => absurd hr.1 (out 3),
      fun hr => absurd hr (out 6)⟩
  case generator => exact ⟨Nat.zero_le _, rfl, fun hr => absurd hr (out 4)⟩
  case parity => exact ⟨fun _ => rfl, fun hr => absurd hr (out 5)⟩
  case grids => exact ⟨fun _ => ⟨rfl, rfl⟩, fun hr => absurd hr (out 7), fun _ => rfl, fun hr => absurd hr (out 14)⟩

theorem sound_raise {s : State} (h : s.Sound) {f : Fault} (hf : f ≠ .tbl) : (s.raise f).Sound := by
  by_cases hs : s.stage = stageErr
  · rwa [s.raise_of_eq f hs]
  · rw [s.raise_of_ne f hs]
    exact sound_faulted s hf

/-- The reset values are those of stage 0 with nothing written (R44). -/
theorem built_cleared (s : State) : s.cleared.Built 0 :=
  ⟨⟨rfl, rfl, rfl, rfl, rfl, rfl, rfl⟩, rfl, rfl, ⟨rfl, rfl, rfl, rfl, rfl⟩, ⟨rfl, rfl⟩, rfl, rfl, rfl,
    ⟨Nat.zero_le _, rfl⟩, rfl, ⟨rfl, rfl⟩, rfl⟩

theorem sound_cleared (s : State) : s.cleared.Sound := (built_cleared s).sound rfl (by decide)

/-- The invariant does not speak of what the transaction returned. -/
theorem sound_respond {s : State} (h : s.Sound) (r : Option Word) : (s.respond r).Sound :=
  ⟨h.memory, h.stage, h.code, h.empty, h.selected, h.stream, h.codewords, h.generator, h.parity, h.grids⟩

/-- The invariant does not speak of the transactions pending, nor of the draw counter. -/
theorem sound_takeOp {s : State} (h : s.Sound) (rest : List HostOp) : (s.takeOp rest).Sound :=
  ⟨h.memory, h.stage, h.code, h.empty, h.selected, h.stream, h.codewords, h.generator, h.parity, h.grids⟩

/-! ## Bodies and commands -/

/-- A body raises a fault of some rule, or leaves a state with `P`. -/
def Leaves (P : State → Prop) : Except Fault State → Prop
  | .ok t => P t
  | .error f => f ≠ .tbl

/-- A command keeps the invariant when its body does, in the stages that accept it. -/
theorem sound_command {s : State} {accepts : BitVec 5 → Bool} {body : State → Except Fault State} (h : s.Sound)
    (hbody : s.stage ≠ stageErr → accepts s.stage = true → Leaves State.Sound (body s)) :
    (s.command accepts body).Sound := by
  rcases State.command_cases accepts body s with ⟨_, e⟩ | ⟨hs, ha, ⟨t, hb, e⟩ | ⟨f, hb, e⟩⟩ | ⟨_, _, e⟩
  · rwa [e]
  · have ht := hbody hs ha
    rw [hb] at ht
    exact e ▸ ht
  · have hf := hbody hs ha
    rw [hb] at hf
    exact e ▸ sound_faulted s hf
  · exact e ▸ sound_faulted s (by decide)

/-- The same for a command of stage 0. -/
theorem sound_command_stage0 {s : State} {body : State → Except Fault State} (h : s.Sound)
    (hbody : s.Built 0 → s.stage = 0#5 → Leaves State.Sound (body s)) :
    (s.command (fun k => k == 0#5) body).Sound :=
  sound_command h fun _ ha =>
    have hs : s.stage = 0#5 := by simpa using ha
    hbody (h.built (by rw [hs]; rfl) (by decide)) hs

/-- A pipeline command keeps the invariant when its body takes the content of its stage to that of the next. -/
theorem sound_pipeline {s : State} {k : Nat} {body : State → Except Fault State} (h : s.Sound)
    (hbody : s.Built k → Leaves (State.Built (k + 1)) (body s)) (hk : k < 17 := by decide) :
    (s.pipeline (BitVec.ofNat 5 k) body).Sound := by
  have hval : ∀ j, j ≤ 17 → (BitVec.ofNat 5 j).toNat = j := fun j hj => toNat_ofNat_of_lt (by omega)
  rcases State.pipeline_cases (BitVec.ofNat 5 k) body s with ⟨_, e⟩ | ⟨_, hs, ⟨t, hb, e⟩ | ⟨f, hb, e⟩⟩ | ⟨_, _, e⟩
  · rwa [e]
  · have ht := hbody (h.built (by rw [hs, hval k hk.le]) hk.le)
    rw [hb] at ht
    have hstage : (t.setStage (BitVec.ofNat 5 k + 1#5)).stage.toNat = k + 1 := by
      rw [State.setStage_stage, ← BitVec.ofNat_add, hval (k + 1) hk]
    exact e ▸ (State.Built.setStage ht _).sound hstage hk
  · have hf := hbody (h.built (by rw [hs, hval k hk.le]) hk.le)
    rw [hb] at hf
    exact e ▸ sound_faulted s hf
  · exact e ▸ sound_faulted s (by decide)

/-! ## Arithmetic commands -/

/-- Writing `P` keeps the invariant in the stages where a command does it. -/
theorem sound_writeP {s : State} (h : s.Sound) (v : Byte) : (s.command running fun s => .ok (s.setP v)).Sound :=
  sound_command h fun _ ha =>
    have hk : s.stage.toNat ≤ 17 := of_decide_eq_true ha
    ((h.built rfl hk).setP v).sound rfl hk

/-- A polynomial of degree `n` in `GEN`, in a stage before `RSGEN`. -/
theorem State.Built.setGen {s : State} {k n : Nat} {m : Memory 8} (h : s.Built k) (hk : k ≤ 3) (hn : n ≤ 30)
    (hok : m.ok genDepth = true) (hlive : m.live = List.range (n + 1)) : (s.setGen m (BitVec.ofNat 5 n)).Built k where
  memory :=
    have ⟨hinp, hbs, hcw, _, hrem⟩ := h.memory
    ⟨hinp, hbs, hcw, hok, hrem⟩
  code := h.code
  length := h.length
  version := h.version
  stream := h.stream
  data := h.data
  total := h.total
  codewords := h.codewords
  generator := by
    have hval : (BitVec.ofNat 5 n).toNat = n := toNat_ofNat_of_lt (by omega)
    rw [if_pos hk]
    simp [hval, hn, hlive]
  parity := h.parity
  grids := h.grids
  placed := h.placed

theorem State.loadGen_gen (s : State) {n : Nat} (hn : n ≤ 30) :
    (s.loadGen n (genpoly n)).gen = Memory.number 0 (genpoly n) := by
  have hlen := length_genpoly n
  refine (Memory.rewritten_eq_number s.gen hlen.ge (Nat.succ_le_succ hn)).trans ?_
  rw [← hlen, List.take_length]

theorem State.Built.sound_setGen {s : State} {n : Nat} {m : Memory 8} (h : s.Built 0) (hs : s.stage = 0#5) (hn : n ≤ 30)
    (hok : m.ok genDepth = true) (hlive : m.live = List.range (n + 1)) : (s.setGen m (BitVec.ofNat 5 n)).Sound :=
  (h.setGen (by decide) hn hok hlive).sound (by rw [State.setGen_stage, hs]; rfl) (by decide)

theorem genp_leaves_sound {s : State} (h : s.Built 0) (hs : s.stage = 0#5) (a : Byte) :
    Leaves State.Sound (genpBody a s) := by
  unfold genpBody
  split
  · next ha =>
    obtain ⟨_, _, _, hok, _⟩ := h.memory
    exact h.sound_setGen hs ha (Memory.ok_rewritten _ hok)
      (Memory.live_rewritten _ (length_genpoly _).ge (Nat.succ_le_succ ha))
  · exact show Fault.ill ≠ .tbl by decide

/-- The product with a linear factor has one coefficient more (R153). -/
theorem pmull_leaves_sound {s : State} (h : s.Built 0) (hs : s.stage = 0#5) (a : Byte) :
    Leaves State.Sound (pmullBody a s) := by
  obtain ⟨_, hlive⟩ : (s.gdeg.getD 0).toNat ≤ 30 ∧ _ := h.generator
  obtain ⟨_, _, _, hok, _⟩ := h.memory
  unfold pmullBody
  cases hd : s.gdeg with
  | none => exact show Fault.uninit ≠ .tbl by decide
  | some d =>
    simp only
    split
    · exact show Fault.ill ≠ .tbl by decide
    · next hlt =>
      have hdeg : d + 1#5 = BitVec.ofNat 5 (d.toNat + 1) := by
        rw [BitVec.ofNat_add, BitVec.ofNat_toNat, BitVec.setWidth_eq]
      have hlen : (pmul (s.genList (d.toNat + 1)) (linearFactor a.toNat)).length = d.toNat + 2 := by
        rw [length_pmul, length_genList]
        rfl
      rw [hd] at hlive
      have hlive' := Memory.live_writeRange (vs := pmul (s.genList (d.toNat + 1)) (linearFactor a.toNat)) hok hlive
        (Nat.zero_le _) (by rw [hlen]; simp) (by rw [hlen]; simp only [genDepth]; omega)
      rw [hlen, Nat.zero_add] at hlive'
      rw [hdeg]
      exact h.sound_setGen hs (by omega) (Memory.ok_writeRange _ _ _ _ hok) hlive'

/-! ## Codeword commands -/

theorem built_vsel {s : State} (h : s.Built 0) : Leaves (State.Built 1) (vselBody params s) := by
  unfold vselBody
  rw [h.lenV_eq]
  cases hv : vsel params s.lengthN with
  | none => exact show Fault.ovf ≠ .tbl by decide
  | some v =>
    have hchosen : (s.selectVersion params v).chosen = v := congrArg (Option.getD · 0) hv
    have hversion : 1 ≤ v ∧ (s.selectVersion params v).Selects v :=
      ⟨(List.mem_range'_1.mp (List.mem_of_find?_eq_some hv)).1, rfl, rfl, rfl, rfl, rfl⟩
    rw [← hchosen] at hversion ⊢
    exact ⟨h.memory, h.code, h.length, hversion, h.stream, h.data, h.total, h.codewords, h.generator, h.parity, h.grids,
      h.placed⟩

theorem built_bser {s : State} (h : s.Built 1) : Leaves (State.Built 2) (bserBody s) := by
  unfold bserBody
  cases hd : s.payload s.lenV.toNat with
  | none => exact show Fault.uninit ≠ .tbl by decide
  | some d =>
    obtain ⟨hinp, hbs, hmem⟩ := h.memory
    obtain ⟨_, hempty⟩ : s.blen = none ∧ s.bs = [] := h.stream
    obtain ⟨_, _, hbound, _⟩ := h.bounds (by decide)
    rw [h.lenV_eq] at hd
    obtain ⟨hlen, hheld⟩ := State.payload_eq_some hd
    have hbits : (bitStream s.verN s.lenV d).length = 8 * streamCodewords s.chosen s.lengthN := by
      rw [length_bitStream, h.verN_eq (by decide), hlen]
    have hlive := Memory.live_writeRange (base := 0) (n := 0) (vs := bitStream s.verN s.lenV d) hbs
      (by rw [hempty]; rfl) (le_refl _) (Nat.zero_le _) (by rw [hbits]; simp only [bsDepth]; omega)
    rw [Nat.zero_add, hbits] at hlive
    exact ⟨⟨hinp, Memory.ok_writeRange _ _ _ _ hbs, hmem⟩, h.code, h.length, h.version,
      ⟨hheld, congrArg (fun n => some (BitVec.ofNat 12 n)) hbits, hlive⟩, h.data, h.total, h.codewords, h.generator,
      h.parity, h.grids, h.placed⟩

theorem built_pack {s : State} (h : s.Built 2) : Leaves (State.Built 3) (packBody s) := by
  obtain ⟨hinp, hbs, hcw, hmem⟩ := h.memory
  obtain ⟨_, _, _, _, hbound⟩ := h.bounds (by decide)
  have hempty : s.cw = [] := h.codewords
  have hlen : s.dataCodewords.length = s.dataCount := by
    rw [length_dataCodewords, h.blenN_eq (by decide), h.datN_eq (by decide), Nat.mul_div_cancel_left _ (by decide)]
    rfl
  have hlive := Memory.live_writeRange (base := 0) (n := 0) (vs := s.dataCodewords) hcw (by rw [hempty]; rfl)
    (le_refl _) (Nat.zero_le _) (by rw [hlen]; simp only [cwDepth]; omega)
  rw [Nat.zero_add, hlen] at hlive
  exact ⟨⟨hinp, hbs, Memory.ok_writeRange _ _ _ _ hcw, hmem⟩, h.code, h.length, h.version, h.stream,
    congrArg (fun n => some (BitVec.ofNat 9 n)) hlen, h.total, hlive, h.generator, h.parity, h.grids, h.placed⟩

theorem built_rsgen {s : State} (h : s.Built 3) : Leaves (State.Built 4) (rsgenBody s) := by
  obtain ⟨hinp, hbs, hcw, hgen, hmem⟩ := h.memory
  obtain ⟨_, _, _, hparity, _⟩ := h.bounds (by decide)
  unfold rsgenBody
  rw [h.ecN_eq (by decide)]
  exact ⟨⟨hinp, hbs, hcw, Memory.ok_rewritten _ hgen, hmem⟩, h.code, h.length, h.version, h.stream, h.data, h.total,
    h.codewords, ⟨rfl, s.loadGen_gen hparity⟩, h.parity, h.grids, h.placed⟩

theorem built_prem {s : State} (h : s.Built 4) : Leaves (State.Built 5) (premBody s) := by
  obtain ⟨hinp, hbs, hcw, hgen, hrem, hmem⟩ := h.memory
  obtain ⟨_, _, _, hparity, _⟩ := h.bounds (by decide)
  unfold premBody
  rw [h.ecN_eq (by decide)]
  have hlen : s.parityCount ≤ (prem (s.cwList s.ndcN) (s.genList (s.parityCount + 1))).length := by
    simpa using le_length_prem (s.cwList s.ndcN) (s.genList (s.parityCount + 1))
  exact ⟨⟨hinp, hbs, hcw, hgen, Memory.ok_rewritten _ hrem, hmem⟩, h.code, h.length, h.version, h.stream, h.data,
    h.total, h.codewords, h.generator, Memory.live_rewritten _ hlen hparity, h.grids, h.placed⟩

theorem built_cat {s : State} (h : s.Built 5) : Leaves (State.Built 6) (catBody s) := by
  obtain ⟨hinp, hbs, hcw, hmem⟩ := h.memory
  obtain ⟨_, _, _, hparity, hdata⟩ := h.bounds (by decide)
  have hheld : s.cw.live = List.range s.dataCount := h.codewords
  unfold catBody
  rw [h.ecN_eq (by decide), h.ndcN_eq (by decide)]
  have hlen := length_remList s s.parityCount
  have hlive := Memory.live_writeRange (vs := s.remList s.parityCount) hcw hheld (le_refl _) (Nat.le_add_right _ _)
    (by rw [hlen]; simp only [cwDepth]; omega)
  rw [hlen] at hlive
  exact ⟨⟨hinp, hbs, Memory.ok_writeRange _ _ _ _ hcw, hmem⟩, h.code, h.length, h.version, h.stream, h.data, rfl, hlive,
    h.generator, h.parity, h.grids, h.placed⟩

/-! ## Matrix commands -/

theorem built_mclr {s : State} (h : s.Built 6) : Leaves (State.Built 7) (mclrBody s) := by
  obtain ⟨hinp, hbs, hcw, hgen, hrem, hval, hrsv⟩ := h.memory
  obtain ⟨_, hcells, hdepth⟩ := h.size_bounds (by decide)
  rw [← hcells] at hdepth
  have hlive : ∀ m : Memory 1, (blankGrid s.sizeN m).live = List.range s.cellCount := fun m =>
    hcells ▸ live_blankGrid m hdepth
  exact ⟨⟨hinp, hbs, hcw, hgen, hrem, Memory.ok_rewritten _ hval, Memory.ok_rewritten _ hrsv⟩, h.code, h.length,
    h.version, h.stream, h.data, h.total, h.codewords, h.generator, h.parity, ⟨hlive _, hlive _⟩, h.placed⟩

namespace State.Built

variable {s : State} {k : Nat}

theorem grids_live (h : s.Built k) (hk : 6 < k) :
    s.val.live = List.range (s.sizeN * s.sizeN) ∧ s.rsv.live = List.range (s.sizeN * s.sizeN) := by
  obtain ⟨_, hcells, _⟩ := h.size_bounds (by omega)
  have hgrids := h.grids
  rw [if_neg (by omega)] at hgrids
  rw [hcells]
  exact hgrids

theorem setVal (h : s.Built k) (hk : 6 < k) {m : Memory 1} (hok : m.ok gridDepth = true)
    (hlive : m.live = List.range (s.sizeN * s.sizeN)) : (s.setVal m).Built k := by
  obtain ⟨hinp, hbs, hcw, hgen, hrem, _, hrsv⟩ := h.memory
  obtain ⟨_, hcells, _⟩ := h.size_bounds (by omega)
  have hgrids := h.grids
  rw [if_neg (by omega)] at hgrids
  refine ⟨⟨hinp, hbs, hcw, hgen, hrem, hok, hrsv⟩, h.code, h.length, h.version, h.stream, h.data, h.total, h.codewords,
    h.generator, h.parity, ?_, h.placed⟩
  rw [if_neg (by omega)]
  exact ⟨hlive.trans (congrArg List.range hcells), hgrids.2⟩

theorem setRsv (h : s.Built k) (hk : 6 < k) {m : Memory 1} (hok : m.ok gridDepth = true)
    (hlive : m.live = List.range (s.sizeN * s.sizeN)) : (s.setRsv m).Built k := by
  obtain ⟨hinp, hbs, hcw, hgen, hrem, hval, _⟩ := h.memory
  obtain ⟨_, hcells, _⟩ := h.size_bounds (by omega)
  have hgrids := h.grids
  rw [if_neg (by omega)] at hgrids
  refine ⟨⟨hinp, hbs, hcw, hgen, hrem, hval, hok⟩, h.code, h.length, h.version, h.stream, h.data, h.total, h.codewords,
    h.generator, h.parity, ?_, h.placed⟩
  rw [if_neg (by omega)]
  exact ⟨hgrids.1, hlive.trans (congrArg List.range hcells)⟩

theorem stampVal (h : s.Built k) (hk : 6 < k) {cells : List (Cell × Bit)}
    (hcells : InGrid s.sizeN (cells.map Prod.fst)) :
    (s.setVal (stamp s.sizeN s.val cells)).Built k := by
  obtain ⟨_, _, _, _, _, hval, _⟩ := h.memory
  exact h.setVal hk (ok_stamp _ _ _ hval) (live_stamp hval (h.grids_live hk).1 hcells)

theorem flagRsv (h : s.Built k) (hk : 6 < k) {cells : List Cell} (hcells : InGrid s.sizeN cells) :
    (s.setRsv (flag s.sizeN s.rsv cells)).Built k := by
  obtain ⟨_, _, _, _, _, _, hrsv⟩ := h.memory
  have hfst : (cells.map (fun x => (x, 1#1))).map Prod.fst = cells := by simp [Function.comp_def]
  exact h.setRsv hk (ok_stamp _ _ _ hrsv) (live_stamp hrsv (h.grids_live hk).2 (hfst.symm ▸ hcells))

theorem stampReserved (h : s.Built k) (hk : 6 < k) {cells : List (Cell × Bit)}
    (hcells : InGrid s.sizeN (cells.map Prod.fst)) : (s.stampReserved cells).Built k :=
  (h.stampVal hk hcells).flagRsv hk hcells

theorem alignAt (h : s.Built k) (hk : 6 < k) {x : Cell} (hr : x.1 + 2 < s.sizeN) (hc : x.2 + 2 < s.sizeN) :
    (s.alignAt x).Built k := by
  unfold State.alignAt
  split
  · exact h
  · exact h.stampReserved hk (inGrid_alignmentCells hr hc)

theorem foldl_alignAt (h : s.Built k) (hk : 6 < k) (xs : List Cell)
    (hxs : ∀ x ∈ xs, x.1 + 2 < s.sizeN ∧ x.2 + 2 < s.sizeN) : (xs.foldl State.alignAt s).Built k := by
  induction xs generalizing s with
  | nil => exact h
  | cons x xs ih =>
    obtain ⟨hr, hc⟩ := hxs x List.mem_cons_self
    refine ih (h.alignAt hk hr hc) fun y hy => ?_
    rw [s.alignAt_sizeN]
    exact hxs y (List.mem_cons_of_mem x hy)

theorem centres_margin (h : s.Built k) (hk : k ≠ 0) :
    ∀ x ∈ s.alignmentCentres, x.1 + 2 < s.sizeN ∧ x.2 + 2 < s.sizeN := by
  obtain ⟨hv, _⟩ := h.selected hk
  rw [← h.verN_eq hk] at hv
  rw [s.alignmentCentres_eq hv, h.sizeN_eq hk, ← h.verN_eq hk]
  exact versionCentres_margin _ hv

/-- After `MCLR`, only `ZPLACE` makes a difference between what two stages hold. -/
theorem advance (h : s.Built k) (hk : 6 < k) (hk' : k ≠ 13) : s.Built (k + 1) := by
  have hle : ∀ {n : Nat} {a b : Prop}, n ≠ k → (if k + 1 ≤ n then a else b) = (if k ≤ n then a else b) := fun hn =>
    if_congr (by omega) rfl rfl
  constructor
  case memory => exact h.memory
  case code => exact h.code
  case length => exact h.length
  case version =>
    rw [if_neg (by omega)]
    exact (if_neg (by omega : k ≠ 0)).mp h.version
  case stream => rw [hle (by omega)]; exact h.stream
  case data => rw [hle (by omega)]; exact h.data
  case total => rw [hle (by omega)]; exact h.total
  case codewords => rw [hle (by omega), hle (by omega)]; exact h.codewords
  case generator => rw [hle (by omega)]; exact h.generator
  case parity => rw [hle (by omega)]; exact h.parity
  case grids => rw [hle (by omega)]; exact h.grids
  case placed => rw [hle (Ne.symm hk')]; exact h.placed

end State.Built

theorem built_pfind {s : State} (h : s.Built 7) : Leaves (State.Built 8) (pfindBody s) :=
  (h.stampReserved (by decide) (inGrid_finderCells _)).advance (by decide) (by decide)

theorem built_ptime {s : State} (h : s.Built 8) : Leaves (State.Built 9) (ptimeBody s) :=
  (h.stampReserved (by decide) (inGrid_timingCells (h.size_bounds (by decide)).1)).advance (by decide) (by decide)

theorem built_pdark {s : State} (h : s.Built 9) : Leaves (State.Built 10) (pdarkBody s) := by
  have hcell : InGrid s.sizeN [darkCell s.verN] := by
    rw [h.sizeN_eq (by decide), h.verN_eq (by decide)]
    rintro x hx
    rw [List.mem_singleton.mp hx, darkCell]
    exact ⟨by omega, by omega⟩
  exact (h.stampReserved (cells := [(darkCell s.verN, 1#1)]) (by decide) hcell).advance (by decide) (by decide)

theorem built_palign {s : State} (h : s.Built 10) : Leaves (State.Built 11) (palignBody s) :=
  (h.foldl_alignAt (by decide) _ (h.centres_margin (by decide))).advance (by decide) (by decide)

theorem built_rfmt {s : State} (h : s.Built 11) : Leaves (State.Built 12) (rfmtBody s) :=
  (h.flagRsv (by decide) (inGrid_formatCells (h.size_bounds (by decide)).1)).advance (by decide) (by decide)

theorem built_rver {s : State} (h : s.Built 12) : Leaves (State.Built 13) (rverBody s) := by
  unfold rverBody
  split
  · exact (h.flagRsv (by decide) (inGrid_versionCells (h.size_bounds (by decide)).1)).advance (by decide) (by decide)
  · exact h.advance (by decide) (by decide)

theorem inGrid_placement (s : State) : InGrid s.sizeN (s.placement.map Prod.fst) := by
  intro x hx
  obtain ⟨c, hc, rfl⟩ := List.mem_map.mp hx
  exact mem_scan (List.mem_of_mem_filter (List.of_mem_zip hc).1)

theorem inGrid_maskedCells (s : State) : InGrid s.sizeN (s.maskedCells.map Prod.fst) := by
  intro x hx
  simp only [State.maskedCells, List.mem_map, exists_exists_and_eq_and] at hx
  obtain ⟨y, hy, rfl⟩ := hx
  exact mem_allCells (List.mem_of_mem_filter hy)

theorem inGrid_infoCells {n i : Nat} {cells : List (Cell × Nat)} (p : Params) (w : BitVec 18)
    (h : InGrid n (cells.map Prod.fst)) : InGrid n ((infoCells p w i cells).map Prod.fst) := by
  rw [infoCells, List.map_map]
  exact h

theorem State.Built.setNpl {s : State} (h : s.Built 13) (v : BitVec 12) : (s.setNpl v).Built 14 :=
  ⟨h.memory, h.code, h.length, h.version, h.stream, h.data, h.total, h.codewords, h.generator, h.parity, h.grids, rfl⟩

theorem built_zplace {s : State} (h : s.Built 13) : Leaves (State.Built 14) (zplaceBody s) :=
  (h.stampVal (by decide) (inGrid_placement s)).setNpl _

theorem built_mask {s : State} (h : s.Built 14) : Leaves (State.Built 15) (maskBody s) :=
  (h.stampVal (by decide) (inGrid_maskedCells s)).advance (by decide) (by decide)

theorem built_wfmt {s : State} (h : s.Built 15) : Leaves (State.Built 16) (wfmtBody params s) :=
  (h.stampVal (by decide) (inGrid_infoCells _ _ (inGrid_formatCells (h.size_bounds (by decide)).1))).advance (by decide)
    (by decide)

theorem built_wver {s : State} (h : s.Built 16) : Leaves (State.Built 17) (wverBody params s) := by
  unfold wverBody
  split
  · exact (h.stampVal (by decide) (inGrid_infoCells _ _ (inGrid_versionCells (h.size_bounds (by decide)).1))).advance
      (by decide) (by decide)
  · exact h.advance (by decide) (by decide)

/-! ## Every command -/

/-- The state that a command leaves. -/
def commandResult (i : Instr) (s : State) : State :=
  match exec i s with
  | .next t => t
  | .fault _ | .refused _ => s

theorem exec_eq_commandResult (i : Instr) (s : State) : exec i s = .next (commandResult i s) := by
  obtain ⟨t, ht⟩ := exec_is_next i s
  rw [commandResult, ht]

/-- `ENCODE` performs the pipeline commands (R116). -/
theorem pipelineStates_eq : pipelineStates params = Instr.pipeline.map commandResult := rfl

theorem mem_pipelineStates {f : State → State} (hf : f ∈ pipelineStates params) :
    ∃ i ∈ Instr.pipeline, i ≠ .encode ∧ f = commandResult i := by
  have hpipeline : ∀ i ∈ Instr.pipeline, i ≠ .encode := by decide
  rw [pipelineStates_eq] at hf
  obtain ⟨i, hi, rfl⟩ := List.mem_map.mp hf
  exact ⟨i, hi, hpipeline i hi, rfl⟩

/-- A chain keeps what each of its commands keeps. -/
theorem runChain_keeps {P : State → Prop} {fs : List (State → State)} {s : State}
    (hfs : ∀ f ∈ fs, ∀ t, t.stage ≠ stageErr → P t → P (f t)) (h : P s) : P (runChain s fs) := by
  refine List.foldlRecOn (motive := P) fs _ h fun t ht f hf => ?_
  split
  · exact ht
  · next hs => exact hfs f hf t hs ht

theorem sound_commandResult_of_ne_encode {s : State} (h : s.Sound) (i : Instr) (hi : i ≠ .encode) :
    (commandResult i s).Sound := by
  cases i with
  | nop => exact sound_command (body := .ok) h fun _ _ => h
  | clr =>
    change (if s.stage = stageErr then s.cleared else s.command running fun s => .ok s.cleared).Sound
    split
    · exact sound_cleared s
    · exact sound_command h fun _ _ => sound_cleared s
  | encode => exact absurd rfl hi
  | gfmul a b => exact sound_writeP h (gfmul a b)
  | gfadd a b => exact sound_writeP h (gfadd a b)
  | genp a => exact sound_command_stage0 h fun hb hs => genp_leaves_sound hb hs a
  | pmull a => exact sound_command_stage0 h fun hb hs => pmull_leaves_sound hb hs a
  | vsel => exact sound_pipeline h built_vsel
  | bser => exact sound_pipeline h built_bser
  | pack => exact sound_pipeline h built_pack
  | rsgen => exact sound_pipeline h built_rsgen
  | prem => exact sound_pipeline h built_prem
  | cat => exact sound_pipeline h built_cat
  | mclr => exact sound_pipeline h built_mclr
  | pfind => exact sound_pipeline h built_pfind
  | ptime => exact sound_pipeline h built_ptime
  | pdark => exact sound_pipeline h built_pdark
  | palign => exact sound_pipeline h built_palign
  | rfmt => exact sound_pipeline h built_rfmt
  | rver => exact sound_pipeline h built_rver
  | zplace => exact sound_pipeline h built_zplace
  | mask => exact sound_pipeline h built_mask
  | wfmt => exact sound_pipeline h built_wfmt
  | wver => exact sound_pipeline h built_wver

theorem sound_commandResult {s : State} (h : s.Sound) (i : Instr) : (commandResult i s).Sound := by
  by_cases hi : i = .encode
  · subst hi
    refine sound_command_stage0 (body := fun s => .ok (runChain s (pipelineStates params))) h fun _ _ =>
      runChain_keeps (fun f hf t _ ht => ?_) h
    obtain ⟨j, _, hne, rfl⟩ := mem_pipelineStates hf
    exact sound_commandResult_of_ne_encode ht j hne
  · exact sound_commandResult_of_ne_encode h i hi

theorem sound_exec {s t : State} (h : s.Sound) {i : Instr} (e : exec i s = .next t) : t.Sound := by
  rw [exec_eq_commandResult] at e
  exact Host.Outcome.next.inj e ▸ sound_commandResult h i

/-! ## Every transaction -/

theorem sound_issue {s t : State} (h : s.Sound) {w : Word} (e : issue w s = .next t) : t.Sound := by
  rcases issue_cases w s with ⟨_, _, e'⟩ | ⟨_, _, e'⟩ | ⟨_, i, _, e'⟩ | ⟨_, r, _, e'⟩
  · exact Host.Outcome.next.inj (e'.symm.trans e) ▸ h
  · exact sound_exec h (e'.symm.trans e)
  · exact sound_exec h (e'.symm.trans e)
  · exact Host.Outcome.next.inj (e'.symm.trans e) ▸ sound_faulted s (by decide)

theorem number_of_cmd {idx : Nat} (h : Reg.ofNumber idx = some .cmd) : idx = 0 := by
  obtain ⟨hlt, hreg⟩ := List.getElem?_eq_some_iff.mp h
  have hfirst : ∀ i : Fin 14,
      [Reg.cmd, .status, .len, .ver, .size, .tot, .ec, .dat, .blen, .ndc, .nac, .gdeg, .p, .npl][i] = .cmd → i = 0 := by
    decide
  exact congrArg Fin.val (hfirst ⟨idx, hlt⟩ hreg)

/-- Outside `CMD`, the host writes in stage 0 only. -/
theorem stage_of_legal_data_write {s : State} {space idx v : Nat} {x : SpaceId} (hx : SpaceId.ofId space = some x)
    (hcmd : x = .reg → idx ≠ 0) (hlegal : s.illegalWrite space idx v = false) :
    s.stage = 0#5 ∧ (x = .reg ∨ x = .inp) := by
  simp only [State.illegalWrite, hx] at hlegal
  cases x with
  | reg =>
    cases hr : Reg.ofNumber idx with
    | none => simp [hr] at hlegal
    | some r =>
      cases r
      case cmd => exact absurd (number_of_cmd hr) (hcmd rfl)
      case len =>
        obtain ⟨hs, _⟩ : s.stage = 0#5 ∧ v < 2 ^ 16 := by simpa [hr] using hlegal
        exact ⟨hs, .inl rfl⟩
      all_goals simp [hr] at hlegal
  | inp =>
    simp only [Bool.or_eq_false_iff, bne_eq_false_iff_eq] at hlegal
    obtain ⟨⟨_, hs⟩, _⟩ := hlegal
    exact ⟨hs, .inr rfl⟩
  | bs | cw | gen | rem | val | rsv | exp | log | vtab | atab | info => simp at hlegal

/-- A host write is the fault `ACC`, the issue of a word, or in stage 0 the write of `LEN` or of an element of `IN`. -/
theorem memWrite_cases (space idx v : Nat) (s : State) :
    memWrite space idx v s = .next (s.raise .acc) ∨ (∃ w, memWrite space idx v s = issue w s) ∨
      (s.stage = 0#5 ∧ ((∃ l, memWrite space idx v s = .next (s.setLen l)) ∨
        ∃ k x, memWrite space idx v s = .next (s.setInp (s.inp.write inDepth k x)))) := by
  cases hbad : s.illegalWrite space idx v with
  | true => exact .inl (by simp [memWrite, hbad])
  | false =>
    right
    cases hx : SpaceId.ofId space with
    | none => simp [State.illegalWrite, hx] at hbad
    | some x =>
      by_cases hcmd : x = .reg ∧ idx = 0
      · obtain ⟨rfl, rfl⟩ := hcmd
        exact .inl ⟨_, by simp [memWrite, hbad, hx]; rfl⟩
      · obtain ⟨hs, rfl | rfl⟩ := stage_of_legal_data_write hx (fun e e' => hcmd ⟨e, e'⟩) hbad
        · obtain ⟨j, rfl⟩ := Nat.exists_eq_succ_of_ne_zero fun e => hcmd ⟨rfl, e⟩
          exact .inr ⟨hs, .inl ⟨_, by simp [memWrite, hbad, hx, State.store]; rfl⟩⟩
        · exact .inr ⟨hs, .inr ⟨_, _, by simp [memWrite, hbad, hx, State.store]; rfl⟩⟩

theorem sound_memWrite {s t : State} (h : s.Sound) {space idx v : Nat} (e : memWrite space idx v s = .next t) :
    t.Sound := by
  have built0 : s.stage = 0#5 → s.Built 0 := fun hs => h.built (by rw [hs]; rfl) (by decide)
  rcases memWrite_cases space idx v s with e' | ⟨w, e'⟩ | ⟨hs, ⟨l, e'⟩ | ⟨k, x, e'⟩⟩
  · exact Host.Outcome.next.inj (e'.symm.trans e) ▸ sound_raise h (by decide)
  · exact sound_issue h (e'.symm.trans e)
  · obtain ⟨hmem, hcode, _, hver, hstr, hndc, hnac, hcw, hgen, hrem, hgrid, hnpl⟩ := built0 hs
    have hbuilt : (s.setLen l).Built 0 := ⟨hmem, hcode, rfl, hver, hstr, hndc, hnac, hcw, hgen, hrem, hgrid, hnpl⟩
    exact Host.Outcome.next.inj (e'.symm.trans e) ▸ hbuilt.sound (by rw [State.setLen_stage, hs]; rfl) (by decide)
  · obtain ⟨⟨hinp, hmem⟩, hcode, hlen, hver, hstr, hndc, hnac, hcw, hgen, hrem, hgrid, hnpl⟩ := built0 hs
    have hbuilt : (s.setInp (s.inp.write inDepth k x)).Built 0 :=
      ⟨⟨Memory.ok_write _ _ _ _ hinp, hmem⟩, hcode, hlen, hver, hstr, hndc, hnac, hcw, hgen, hrem, hgrid, hnpl⟩
    exact Host.Outcome.next.inj (e'.symm.trans e) ▸ hbuilt.sound (by rw [State.setInp_stage, hs]; rfl) (by decide)

theorem sound_perform {s t : State} (h : s.Sound) {op : HostOp} (e : perform op s = .next t) : t.Sound := by
  cases op with
  | reset => exact Host.Outcome.next.inj e ▸ sound_respond (sound_cleared s) none
  | read space idx =>
    have e' : s.memRead params space idx = t := Host.Outcome.next.inj e
    rcases s.memRead_cases params space idx with ⟨_, r, hr⟩ | ⟨_, r, hr⟩
    · exact hr.symm.trans e' ▸ sound_respond h r
    · exact hr.symm.trans e' ▸ sound_respond (sound_raise h (by decide)) r
  | write space idx v => exact sound_memWrite (sound_respond h none) e

/-- Settles O58: nothing has been written, in stage 0. -/
theorem resetIsSound : Obligations.ResetIsSound := sound_cleared State.reset

/-- Settles O59, by the kind of the next transaction. -/
theorem stepKeepsSound : Obligations.StepKeepsSound := by
  unfold Obligations.StepKeepsSound
  intro s t h e
  cases hhost : s.host with
  | nil =>
    rw [step_idle s hhost] at e
    exact Host.Outcome.next.inj e ▸ h
  | cons op rest =>
    rw [step_of_host s op rest hhost] at e
    exact sound_perform (sound_takeOp h rest) e

end Sys2Proof.Machine
end

section
/-! PROOFS. The frame of every command (R21, R68), the reserved cells (R36), the reset values (R44) and `STATUS`
(R22). -/

namespace Sys2Proof.Machine

open Sys2Proof.Config Sys2Proof.Claims

/-! ## The frame of a command -/

/-- A state without what the tables of R21 and R68 let the command write; `CLR` writes everything but the model's own
fields. -/
def erased (i : Instr) (s : State) : State :=
  match i with
  | .nop => s
  | .clr => s.cleared
  | .encode =>
    { s with
      stage := 0, ver := none, size := none, tot := none, ec := none, dat := none, blen := none, ndc := none,
      nac := none, gdeg := none, npl := none, bs := [], cw := [], gen := [], rem := [], val := [], rsv := [] }
  | .gfmul _ _ | .gfadd _ _ => { s with p := none }
  | .genp _ | .pmull _ => { s with gdeg := none, gen := [] }
  | .vsel => { s with stage := 0, ver := none, size := none, tot := none, ec := none, dat := none }
  | .bser => { s with stage := 0, blen := none, bs := [] }
  | .pack => { s with stage := 0, ndc := none, cw := [] }
  | .rsgen => { s with stage := 0, gdeg := none, gen := [] }
  | .prem => { s with stage := 0, rem := [] }
  | .cat => { s with stage := 0, nac := none, cw := [] }
  | .mclr | .pfind | .ptime | .pdark | .palign => { s with stage := 0, val := [], rsv := [] }
  | .rfmt | .rver => { s with stage := 0, rsv := [] }
  | .zplace => { s with stage := 0, npl := none, val := [] }
  | .mask | .wfmt | .wver => { s with stage := 0, val := [] }

/-- The model's own fields (log 1, 3, 4) are the same. -/
def SameOwn (s t : State) : Prop := t.host = s.host ∧ t.resp = s.resp ∧ t.draws = s.draws

/-- From `s` to `t`, the model's own fields are kept, and without a fault everything that `i` may not write. -/
def Framed (i : Instr) (s t : State) : Prop := SameOwn s t ∧ (t.stage ≠ stageErr → erased i t = erased i s)

theorem sameOwn_erased (i : Instr) (s : State) : SameOwn s (erased i s) := by
  cases i <;> exact ⟨rfl, rfl, rfl⟩

theorem SameOwn.trans {s t u : State} : SameOwn s t → SameOwn t u → SameOwn s u :=
  fun ⟨hhost, hresp, hdraws⟩ ⟨hhost', hresp', hdraws'⟩ =>
    ⟨hhost'.trans hhost, hresp'.trans hresp, hdraws'.trans hdraws⟩

theorem SameOwn.symm {s t : State} : SameOwn s t → SameOwn t s :=
  fun ⟨hhost, hresp, hdraws⟩ => ⟨hhost.symm, hresp.symm, hdraws.symm⟩

/-- Every command of the pipeline writes `STAGE` (R113). -/
theorem erased_setStage {i : Instr} (hi : i ∈ Instr.pipeline) (s : State) (k : BitVec 5) :
    erased i (s.setStage k) = erased i s := by
  cases i
  case nop | clr | encode | gfmul | gfadd | genp | pmull => simp [Instr.pipeline] at hi
  all_goals rfl

/-- `ENCODE` may write whatever one of its commands may (R116). -/
theorem erased_encode_erased {i : Instr} (hi : i ∈ Instr.pipeline) (s : State) :
    erased .encode (erased i s) = erased .encode s := by
  cases i
  case nop | clr | encode | gfmul | gfadd | genp | pmull => simp [Instr.pipeline] at hi
  all_goals rfl

theorem framed_of_erased_eq {i : Instr} {s t : State} (h : erased i t = erased i s) : Framed i s t :=
  ⟨(h ▸ sameOwn_erased i s : SameOwn s (erased i t)).trans (sameOwn_erased i t).symm, fun _ => h⟩

theorem framed_faulted (i : Instr) (s : State) (f : Fault) : Framed i s (s.faulted f) :=
  ⟨⟨rfl, rfl, rfl⟩, fun h => absurd rfl h⟩

theorem framed_command {i : Instr} {s : State} {accepts : BitVec 5 → Bool} {body : State → Except Fault State}
    (hbody : ∀ u, body s = .ok u → Framed i s u) : Framed i s (s.command accepts body) := by
  rcases State.command_cases accepts body s with ⟨_, e⟩ | ⟨_, _, ⟨u, hu, e⟩ | ⟨f, _, e⟩⟩ | ⟨_, _, e⟩
  · rw [e]
    exact framed_of_erased_eq rfl
  · rw [e]
    exact hbody u hu
  · rw [e]
    exact framed_faulted i s f
  · rw [e]
    exact framed_faulted i s .seq

theorem framed_pipeline {i : Instr} {s : State} {k : BitVec 5} {body : State → Except Fault State}
    (hbody : ∀ u, body s = .ok u → erased i u = erased i s) (hi : i ∈ Instr.pipeline := by decide) :
    Framed i s (s.pipeline k body) := by
  refine framed_command fun t ht => ?_
  cases hu : body s with
  | ok u =>
    rw [hu] at ht
    obtain rfl : u.setStage (k + 1#5) = t := Except.ok.inj ht
    exact framed_of_erased_eq ((erased_setStage hi u _).trans (hbody u hu))
  | error f =>
    rw [hu] at ht
    exact absurd ht (by simp [Except.map])

/-- The same for a body that cannot fault. -/
theorem framed_pipeline_ok {i : Instr} {s u : State} {k : BitVec 5} {body : State → Except Fault State}
    (hbody : body s = .ok u) (hu : erased i u = erased i s) (hi : i ∈ Instr.pipeline := by decide) :
    Framed i s (s.pipeline k body) :=
  framed_pipeline (fun _ hu' => Except.ok.inj (hbody.symm.trans hu') ▸ hu) hi

theorem erased_stampReserved {i : Instr} (hi : i ∈ [Instr.pfind, .ptime, .pdark, .palign]) (s : State)
    (cells : List (Cell × Bit)) : erased i (s.stampReserved cells) = erased i s := by
  simp only [List.mem_cons, List.not_mem_nil, or_false] at hi
  rcases hi with rfl | rfl | rfl | rfl
  all_goals simp [erased, State.stampReserved]

theorem erased_foldl_alignAt (s : State) (xs : List Cell) :
    erased .palign (xs.foldl State.alignAt s) = erased .palign s := by
  refine List.foldlRecOn (motive := fun t => erased .palign t = erased .palign s) xs _ rfl fun t ht x _ => ?_
  unfold State.alignAt
  split
  · exact ht
  · exact (erased_stampReserved (by decide) t _).trans ht

theorem framed_of_ne_encode (s : State) (i : Instr) (hi : i ≠ .encode) : Framed i s (commandResult i s) := by
  cases i with
  | nop => exact framed_command (body := .ok) fun u hu => Except.ok.inj hu ▸ framed_of_erased_eq rfl
  | clr =>
    change Framed .clr s (if s.stage = stageErr then s.cleared else s.command running fun s => .ok s.cleared)
    split
    · exact framed_of_erased_eq rfl
    · exact framed_command fun u hu => Except.ok.inj hu ▸ framed_of_erased_eq rfl
  | encode => exact absurd rfl hi
  | gfmul a b =>
    exact framed_command (body := fun s => .ok (s.setP (gfmul a b))) fun u hu =>
      Except.ok.inj hu ▸ framed_of_erased_eq rfl
  | gfadd a b =>
    exact framed_command (body := fun s => .ok (s.setP (gfadd a b))) fun u hu =>
      Except.ok.inj hu ▸ framed_of_erased_eq rfl
  | genp a =>
    refine framed_command (body := genpBody a) fun u hu => ?_
    unfold genpBody at hu
    split at hu
    · exact Except.ok.inj hu ▸ framed_of_erased_eq rfl
    · cases hu
  | pmull a =>
    refine framed_command (body := pmullBody a) fun u hu => ?_
    unfold pmullBody at hu
    split at hu
    · cases hu
    · split at hu
      · cases hu
      · exact Except.ok.inj hu ▸ framed_of_erased_eq rfl
  | vsel =>
    refine framed_pipeline (body := vselBody params) fun u hu => ?_
    unfold vselBody at hu
    split at hu
    · cases hu
    · exact Except.ok.inj hu ▸ rfl
  | bser =>
    refine framed_pipeline (body := bserBody) fun u hu => ?_
    unfold bserBody at hu
    split at hu
    · cases hu
    · exact Except.ok.inj hu ▸ rfl
  | pack => exact framed_pipeline_ok (body := packBody) rfl rfl
  | rsgen => exact framed_pipeline_ok (body := rsgenBody) rfl rfl
  | prem => exact framed_pipeline_ok (body := premBody) rfl rfl
  | cat => exact framed_pipeline_ok (body := catBody) rfl rfl
  | mclr => exact framed_pipeline_ok (body := mclrBody) rfl (by simp [erased])
  | pfind => exact framed_pipeline_ok (body := pfindBody) rfl (erased_stampReserved (by decide) s _)
  | ptime => exact framed_pipeline_ok (body := ptimeBody) rfl (erased_stampReserved (by decide) s _)
  | pdark => exact framed_pipeline_ok (body := pdarkBody) rfl (erased_stampReserved (by decide) s _)
  | palign => exact framed_pipeline_ok (body := palignBody) rfl (erased_foldl_alignAt s _)
  | rfmt => exact framed_pipeline_ok (body := rfmtBody) rfl rfl
  | rver =>
    refine framed_pipeline (body := rverBody) fun u hu => ?_
    unfold rverBody at hu
    split at hu
    · exact Except.ok.inj hu ▸ rfl
    · exact Except.ok.inj hu ▸ rfl
  | zplace => exact framed_pipeline_ok (body := zplaceBody) rfl (by simp [erased])
  | mask => exact framed_pipeline_ok (body := maskBody) rfl rfl
  | wfmt => exact framed_pipeline_ok (body := wfmtBody params) rfl rfl
  | wver =>
    refine framed_pipeline (body := wverBody params) fun u hu => ?_
    unfold wverBody at hu
    split at hu
    · exact Except.ok.inj hu ▸ rfl
    · exact Except.ok.inj hu ▸ rfl

theorem framed_commandResult (s : State) (i : Instr) : Framed i s (commandResult i s) := by
  by_cases hi : i = .encode
  · subst hi
    refine framed_command (body := fun s => .ok (runChain s (pipelineStates params))) fun u hu =>
      Except.ok.inj hu ▸ runChain_keeps (fun f hf t hs ht => ?_) (framed_of_erased_eq rfl)
    obtain ⟨j, hj, hne, rfl⟩ := mem_pipelineStates hf
    obtain ⟨hown, hkeep⟩ := framed_of_ne_encode t j hne
    obtain ⟨hown', hkeep'⟩ := ht
    refine ⟨hown'.trans hown, fun hs' => ?_⟩
    rw [← hkeep' hs, ← erased_encode_erased hj t, ← hkeep hs', erased_encode_erased hj]
  · exact framed_of_ne_encode s i hi

/-- Settles O52: the fields that `erased` leaves in place are the ones of the statement, command by command. -/
theorem commandsWriteOnlyTheirRegisters : Obligations.CommandsWriteOnlyTheirRegisters := by
  unfold Obligations.CommandsWriteOnlyTheirRegisters
  intro i s t e
  rw [exec_eq_commandResult] at e
  obtain ⟨hown, hkeep⟩ := Host.Outcome.next.inj e ▸ framed_commandResult s i
  refine ⟨hown, fun hs hclr => ?_⟩
  have h := hkeep hs
  cases i
  case clr => exact absurd rfl hclr
  all_goals
    simp only [erased, State.mk.injEq] at h
    simp [h]

/-! ## Reserved cells -/

/-- A pipeline command that does not fault has run its body. -/
theorem State.pipeline_of_ne_err {s : State} {k : BitVec 5} {body : State → Except Fault State}
    (h : (s.pipeline k body).stage ≠ stageErr) :
    ∃ u, body s = .ok u ∧ s.pipeline k body = u.setStage (k + 1#5) := by
  rcases s.pipeline_cases k body with ⟨hs, e⟩ | ⟨_, _, ⟨u, hu, e⟩ | ⟨f, _, e⟩⟩ | ⟨_, _, e⟩
  · exact absurd (e.symm ▸ hs) h
  · exact ⟨u, hu, e⟩
  · exact absurd (by rw [e]; rfl) h
  · exact absurd (by rw [e]; rfl) h

/-- Where only cells that are not reserved are written, a reserved one keeps its value. -/
theorem read_stamp_reserved {s : State} {n k : Nat} {cells : List (Cell × Bit)} (m : Memory 1)
    (hfree : ∀ c ∈ cells, s.rsvAt n c.1.1 c.1.2 = 0#1) (hk : s.rsv.read k = some 1#1) :
    (stamp n m cells).read k = m.read k := by
  refine read_stamp_other n m cells k ?_
  rintro c hc rfl
  have hflag : s.rsvAt n c.1.1 c.1.2 = 1#1 := by
    rw [State.rsvAt, ← cellIndex, hk]
    rfl
  exact absurd (hflag.symm.trans (hfree c hc)) (by decide)

theorem placement_free (s : State) : ∀ c ∈ s.placement, s.rsvAt s.sizeN c.1.1 c.1.2 = 0#1 := fun _ hc =>
  eq_of_beq (List.mem_filter.mp (List.of_mem_zip hc).1).2

theorem maskedCells_free (s : State) : ∀ c ∈ s.maskedCells, s.rsvAt s.sizeN c.1.1 c.1.2 = 0#1 := by
  intro c hc
  obtain ⟨x, hx, rfl⟩ := List.mem_map.mp hc
  have hpass := (List.mem_filter.mp hx).2
  rw [Bool.and_eq_true] at hpass
  exact eq_of_beq hpass.1

/-- Settles O54: both commands stamp cells that are not reserved. -/
theorem placementAndMaskKeepReservedCells : Obligations.PlacementAndMaskKeepReservedCells := by
  unfold Obligations.PlacementAndMaskKeepReservedCells
  rintro i s t k (rfl | rfl) e hs hk
  · obtain rfl : zplaceState s = t := Host.Outcome.next.inj e
    obtain ⟨u, hu, e'⟩ := State.pipeline_of_ne_err hs
    obtain rfl := Except.ok.inj hu
    rw [zplaceState, e']
    exact read_stamp_reserved s.val (placement_free s) hk
  · obtain rfl : maskState s = t := Host.Outcome.next.inj e
    obtain ⟨u, hu, e'⟩ := State.pipeline_of_ne_err hs
    obtain rfl := Except.ok.inj hu
    rw [maskState, e']
    exact read_stamp_reserved s.val (maskedCells_free s) hk

/-! ## Reset and `CLR` -/

theorem exec_clr {s : State} (h : s.LegalStage) : exec .clr s = .next s.cleared := by
  change Host.Outcome.next (if s.stage = stageErr then s.cleared else s.command running fun s => .ok s.cleared) = _
  rcases h with h | h
  · have hs := State.running_ne_err h
    rw [if_neg hs, State.command_ok running (fun s => .ok s.cleared) s s.cleared hs (decide_eq_true h) rfl]
  · rw [if_pos h]

/-- Settles O8. -/
theorem resetAndClrGiveResetValues : Obligations.ResetAndClrGiveResetValues :=
  ⟨rfl, by decide, fun _ => ⟨none, rfl⟩, fun _ h => exec_clr h⟩

/-! ## `STATUS` -/

/-- Fields of a word that do not overlap add up. -/
theorem toNat_or_shiftLeft {w : Nat} (a b : BitVec w) (n : Nat) (ha : a.toNat < 2 ^ n) (hb : b.toNat * 2 ^ n < 2 ^ w) :
    (a ||| b <<< n).toNat = a.toNat + 2 ^ n * b.toNat := by
  rw [BitVec.toNat_or, BitVec.toNat_shiftLeft, Nat.shiftLeft_eq, Nat.mod_eq_of_lt hb, Nat.mul_comm, Nat.or_comm,
    ← Nat.two_pow_add_eq_or_of_lt ha, Nat.add_comm]

theorem State.status_toNat (s : State) :
    s.status.toNat = s.stage.toNat + 2 ^ 8 * s.errc.toNat + (if s.stage = 17#5 then 2 ^ 11 else 0) +
      (if s.stage = 31#5 then 2 ^ 12 else 0) := by
  have hstage : (s.stage.setWidth 32).toNat = s.stage.toNat := BitVec.toNat_setWidth_of_le (by decide)
  have hcode : (s.errc.setWidth 32).toNat = s.errc.toNat := BitVec.toNat_setWidth_of_le (by decide)
  have hflag : ∀ b : Bool, ((BitVec.ofBool b).setWidth 32).toNat = if b = true then 1 else 0 := by decide
  have hstage' := s.stage.isLt
  have hcode' := s.errc.isLt
  have hdone := hflag s.done
  have herr := hflag s.err
  have h8 := toNat_or_shiftLeft (s.stage.setWidth 32) (s.errc.setWidth 32) 8 (by omega) (by omega)
  have h11 := toNat_or_shiftLeft _ ((BitVec.ofBool s.done).setWidth 32) 11 (by rw [h8]; omega)
    (by rw [hdone]; split <;> decide)
  have h12 := toNat_or_shiftLeft _ ((BitVec.ofBool s.err).setWidth 32) 12
    (by rw [h11, h8, hdone]; split <;> omega) (by rw [herr]; split <;> decide)
  rw [State.status, h12, h11, h8, hstage, hcode, hdone, herr]
  simp only [State.done, State.err, beq_iff_eq, mul_ite, mul_one, mul_zero]

/-- A host write to `STATUS` is illegal in every stage (R63 (d)). -/
theorem perform_write_status (s : State) (v : Nat) :
    perform (.write 0 1 v) s = .next ((s.respond none).raise .acc) := rfl

/-- Settles O9. -/
theorem statusIsViewOfStageAndCode : Obligations.StatusIsViewOfStageAndCode := by
  unfold Obligations.StatusIsViewOfStageAndCode
  intro s
  refine ⟨s.status_toNat, rfl, fun v => ⟨none, ?_⟩, fun h => ?_⟩
  · rw [perform_write_status]
    by_cases hs : s.stage = 31#5
    · rw [if_pos hs, State.raise_of_eq (s.respond none) _ hs]
      rfl
    · rw [if_neg hs, State.raise_of_ne (s.respond none) _ hs]
      rfl
  · obtain ⟨_, _, hcode⟩ := h.code
    exact ⟨fun h0 hs => hcode.mp hs h0, fun hs => not_not.mp fun h0 => hs (hcode.mpr h0)⟩

end Sys2Proof.Machine
end

section
/-! PROOFS. No command of a sound state takes a draw (R23, R14): what it leaves is the same for every draw counter. -/

namespace Sys2Proof.Machine

open Sys2Proof.Config

/-- The same state with another draw counter. -/
def State.withDraws (s : State) (n : Nat) : State := { s with draws := n }

/-! ## What a sound state's commands read -/

namespace State.Built

variable {s : State} {k : Nat}

theorem sameInput (h : s.Built k) (n : Nat) : SameInput s (s.withDraws n) := by
  obtain ⟨l, hl⟩ := Option.isSome_iff_exists.mp h.length
  exact ⟨l, hl, hl, fun _ _ => rfl⟩

theorem sameVersion (h : s.Built k) (n : Nat) (hk : k ≠ 0 := by decide) : SameVersion s (s.withDraws n) := by
  obtain ⟨hv, hrow⟩ := h.selected hk
  exact ⟨_, hv, hrow, hrow⟩

theorem sameStream (h : s.Built 2) (n : Nat) : SameStream s (s.withDraws n) := by
  obtain ⟨_, hblen, hbs⟩ : _ ∧ _ ∧ _ := h.stream
  rw [← h.blenN_eq (by decide)] at hbs
  exact ⟨⟨_, hblen, hblen⟩, held_of_live hbs⟩

theorem sameData (h : s.Built k) (n : Nat) (hlow : 2 < k := by decide) (hhigh : k ≤ 5 := by decide) :
    SameData s (s.withDraws n) := by
  have hndc := h.data
  have hcw := h.codewords
  rw [if_neg (by omega)] at hndc
  rw [if_neg (by omega), if_pos hhigh, ← h.ndcN_eq hlow] at hcw
  exact ⟨⟨_, hndc, hndc⟩, held_of_live hcw⟩

theorem heldBelow_gen (h : s.Built 4) : HeldBelow s.gen s.gen (s.ecN + 1) := by
  obtain ⟨_, hgen⟩ : _ ∧ s.gen = Memory.number 0 (genpoly s.parityCount) := h.generator
  refine held_of_live ?_
  rw [hgen, Memory.live_number, length_genpoly, h.ecN_eq (by decide), List.range_eq_range']

theorem heldBelow_rem (h : s.Built 5) : HeldBelow s.rem s.rem s.ecN :=
  held_of_live (h.ecN_eq (by decide) ▸ h.parity)

theorem sameCodewords (h : s.Built k) (n : Nat) (hk : 5 < k) : SameCodewords s (s.withDraws n) := by
  have hnac := h.total
  have hcw := h.codewords
  rw [if_neg (by omega)] at hnac
  rw [if_neg (by omega), if_neg (by omega), ← h.nacN_eq hk] at hcw
  exact ⟨⟨_, hnac, hnac⟩, held_of_live hcw⟩

/-- From `MCLR` on, all that the matrix commands read. -/
theorem afterMclr (h : s.Built k) (n : Nat) (hk : 6 < k := by decide) : AfterMclr s (s.withDraws n) := by
  obtain ⟨hval, hrsv⟩ := h.grids_live hk
  exact ⟨⟨h.sameVersion n (by omega), rfl, rfl, rfl, rfl, rfl, h.sameCodewords n (by omega)⟩,
    ⟨rfl, held_of_live hval⟩, ⟨rfl, held_of_live hrsv⟩⟩

end State.Built

/-! ## Bodies -/

/-- The body leaves the same, or raises the same fault, whatever the draw counter. -/
def BodyIgnoresDraws (body : State → Except Fault State) (s : State) (n : Nat) : Prop :=
  body (s.withDraws n) = (body s).map (fun t => t.withDraws n)

section
variable {s : State} (n : Nat)

theorem genp_ignoresDraws (a : Byte) : BodyIgnoresDraws (genpBody a) s n := by
  unfold BodyIgnoresDraws genpBody
  split
  · rfl
  · rfl

theorem pmull_ignoresDraws (h : s.Built 0) (a : Byte) : BodyIgnoresDraws (pmullBody a) s n := by
  obtain ⟨_, hlive⟩ : (s.gdeg.getD 0).toNat ≤ 30 ∧ _ := h.generator
  have hsame : (s.withDraws n).gdeg = s.gdeg := rfl
  unfold BodyIgnoresDraws pmullBody
  rw [hsame]
  cases hd : s.gdeg with
  | none => rfl
  | some d =>
    rw [hd] at hlive
    have hcoeff : s.genList (d.toNat + 1) = (s.withDraws n).genList (d.toNat + 1) :=
      HeldBelow.genList_eq (held_of_live hlive)
    simp only [← hcoeff]
    split
    · rfl
    · rfl

theorem vsel_ignoresDraws (h : s.Built 0) : BodyIgnoresDraws (vselBody params) s n := by
  unfold BodyIgnoresDraws vselBody
  rw [← (h.sameInput n).lenV_eq]
  cases vsel params s.lenV.toNat with
  | none => rfl
  | some v => rfl

theorem bser_ignoresDraws (h : s.Built 1) : BodyIgnoresDraws bserBody s n := by
  unfold BodyIgnoresDraws bserBody
  rw [← (h.sameInput n).payload_eq, ← (h.sameInput n).lenV_eq, ← (h.sameVersion n).verN_eq]
  cases s.payload s.lenV.toNat with
  | none => rfl
  | some d => rfl

theorem pack_ignoresDraws (h : s.Built 2) : BodyIgnoresDraws packBody s n := by
  have hdata := AfterBser.dataCodewords_eq ⟨h.sameVersion n, h.sameStream n⟩
  unfold BodyIgnoresDraws packBody
  rw [← hdata]
  rfl

theorem rsgen_ignoresDraws (h : s.Built 3) : BodyIgnoresDraws rsgenBody s n := by
  unfold BodyIgnoresDraws rsgenBody
  rw [← (h.sameVersion n).ecN_eq]
  rfl

theorem prem_ignoresDraws (h : s.Built 4) : BodyIgnoresDraws premBody s n := by
  have hdata := h.sameData n
  have hcoeff : s.genList (s.ecN + 1) = (s.withDraws n).genList (s.ecN + 1) := HeldBelow.genList_eq h.heldBelow_gen
  unfold BodyIgnoresDraws premBody
  rw [← hdata.ndcN_eq, ← (h.sameVersion n).ecN_eq, ← hdata.2.cwList_eq, ← hcoeff]
  rfl

theorem cat_ignoresDraws (h : s.Built 5) : BodyIgnoresDraws catBody s n := by
  have hparity : s.remList s.ecN = (s.withDraws n).remList s.ecN := HeldBelow.remList_eq h.heldBelow_rem
  unfold BodyIgnoresDraws catBody
  rw [← (h.sameData n).ndcN_eq, ← (h.sameVersion n).ecN_eq, ← hparity]
  rfl

theorem mclr_ignoresDraws (h : s.Built 6) : BodyIgnoresDraws mclrBody s n := by
  unfold BodyIgnoresDraws mclrBody
  rw [← (h.sameVersion n).sizeN_eq]
  rfl

theorem stampReserved_withDraws (h : SameVersion s (s.withDraws n)) (cells : List (Cell × Bit)) :
    (s.withDraws n).stampReserved cells = (s.stampReserved cells).withDraws n := by
  unfold State.stampReserved
  rw [← h.sizeN_eq]
  rfl

theorem pfind_ignoresDraws (h : s.Built 7) : BodyIgnoresDraws pfindBody s n := by
  unfold BodyIgnoresDraws pfindBody
  rw [← (h.sameVersion n).sizeN_eq, stampReserved_withDraws n (h.sameVersion n)]
  rfl

theorem ptime_ignoresDraws (h : s.Built 8) : BodyIgnoresDraws ptimeBody s n := by
  unfold BodyIgnoresDraws ptimeBody
  rw [← (h.sameVersion n).sizeN_eq, stampReserved_withDraws n (h.sameVersion n)]
  rfl

theorem pdark_ignoresDraws (h : s.Built 9) : BodyIgnoresDraws pdarkBody s n := by
  unfold BodyIgnoresDraws pdarkBody
  rw [← (h.sameVersion n).verN_eq, stampReserved_withDraws n (h.sameVersion n)]
  rfl

theorem alignAt_withDraws {k : Nat} (h : s.Built k) (hk : 6 < k) {x : Cell} (hr : x.1 < s.sizeN) (hc : x.2 < s.sizeN) :
    (s.withDraws n).alignAt x = (s.alignAt x).withDraws n := by
  have hread := h.afterMclr n hk
  unfold State.alignAt
  rw [← hread.version.sizeN_eq, ← hread.2.2.rsvAt_eq hr hc]
  split
  · rfl
  · exact stampReserved_withDraws n hread.version _

theorem foldl_alignAt_withDraws {k : Nat} (h : s.Built k) (hk : 6 < k) (xs : List Cell)
    (hxs : ∀ x ∈ xs, x.1 + 2 < s.sizeN ∧ x.2 + 2 < s.sizeN) :
    xs.foldl State.alignAt (s.withDraws n) = (xs.foldl State.alignAt s).withDraws n := by
  induction xs generalizing s with
  | nil => rfl
  | cons x xs ih =>
    obtain ⟨hr, hc⟩ := hxs x List.mem_cons_self
    rw [List.foldl_cons, List.foldl_cons, alignAt_withDraws n h hk (by omega) (by omega)]
    refine ih (h.alignAt hk hr hc) fun y hy => ?_
    rw [s.alignAt_sizeN]
    exact hxs y (List.mem_cons_of_mem x hy)

theorem palign_ignoresDraws (h : s.Built 10) : BodyIgnoresDraws palignBody s n := by
  have hver := h.sameVersion n
  obtain ⟨hv, _⟩ := hver.verN_mem
  have hcentres : s.alignmentCentres = (s.withDraws n).alignmentCentres := by
    rw [s.alignmentCentres_eq hv, (s.withDraws n).alignmentCentres_eq (hver.verN_eq ▸ hv), hver.verN_eq]
  unfold BodyIgnoresDraws palignBody
  rw [← hcentres, foldl_alignAt_withDraws n h (by decide) _ (h.centres_margin (by decide))]
  rfl

theorem rfmt_ignoresDraws (h : s.Built 11) : BodyIgnoresDraws rfmtBody s n := by
  unfold BodyIgnoresDraws rfmtBody
  rw [← (h.sameVersion n).sizeN_eq]
  rfl

theorem rver_ignoresDraws (h : s.Built 12) : BodyIgnoresDraws rverBody s n := by
  unfold BodyIgnoresDraws rverBody
  rw [← (h.sameVersion n).sizeN_eq, ← (h.sameVersion n).verN_eq]
  split
  · rfl
  · rfl

theorem zplace_ignoresDraws (h : s.Built 13) : BodyIgnoresDraws zplaceBody s n := by
  unfold BodyIgnoresDraws zplaceBody
  rw [← (h.afterMclr n).placement_eq, ← (h.sameVersion n).sizeN_eq]
  rfl

theorem mask_ignoresDraws (h : s.Built 14) : BodyIgnoresDraws maskBody s n := by
  unfold BodyIgnoresDraws maskBody
  rw [← (h.afterMclr n).maskedCells_eq, ← (h.sameVersion n).sizeN_eq]
  rfl

theorem wfmt_ignoresDraws (h : s.Built 15) : BodyIgnoresDraws (wfmtBody params) s n := by
  unfold BodyIgnoresDraws wfmtBody
  rw [← (h.sameVersion n).sizeN_eq]
  rfl

theorem wver_ignoresDraws (h : s.Built 16) : BodyIgnoresDraws (wverBody params) s n := by
  obtain ⟨hv, _⟩ := (h.sameVersion n).verN_mem
  unfold BodyIgnoresDraws wverBody
  rw [← (h.sameVersion n).sizeN_eq, ← (h.sameVersion n).verN_eq]
  split
  · next h7 =>
    rw [← infoAt_eq s (s.withDraws n) hv h7]
    rfl
  · rfl

/-! ## Commands -/

theorem command_withDraws {accepts : BitVec 5 → Bool} {body : State → Except Fault State}
    (hbody : accepts s.stage = true → BodyIgnoresDraws body s n) :
    (s.withDraws n).command accepts body = (s.command accepts body).withDraws n := by
  rcases State.command_cases accepts body s with ⟨hs, e⟩ | ⟨hs, ha, ⟨t, hb, e⟩ | ⟨f, hb, e⟩⟩ | ⟨hs, ha, e⟩
  · rw [e, State.command_err _ _ (s.withDraws n) hs]
  · have hd : body (s.withDraws n) = (body s).map (fun t => t.withDraws n) := hbody ha
    rw [hb] at hd
    rw [e, State.command_ok accepts body (s.withDraws n) _ hs ha hd]
  · have hd : body (s.withDraws n) = (body s).map (fun t => t.withDraws n) := hbody ha
    rw [hb] at hd
    rw [e, State.command_error accepts body (s.withDraws n) _ hs ha hd]
    rfl
  · rw [e, State.command_seq accepts body (s.withDraws n) hs ha]
    rfl

theorem command_stage0_withDraws {body : State → Except Fault State} (h : s.Sound)
    (hbody : s.Built 0 → BodyIgnoresDraws body s n) :
    (s.withDraws n).command (fun k => k == 0#5) body = (s.command (fun k => k == 0#5) body).withDraws n :=
  command_withDraws n fun ha =>
    have hs : s.stage = 0#5 := by simpa using ha
    hbody (h.built (by rw [hs]; rfl) (by decide))

theorem pipeline_withDraws {k : Nat} {body : State → Except Fault State} (h : s.Sound)
    (hbody : s.Built k → BodyIgnoresDraws body s n) (hk : k < 17 := by decide) :
    (s.withDraws n).pipeline (BitVec.ofNat 5 k) body = (s.pipeline (BitVec.ofNat 5 k) body).withDraws n := by
  refine command_withDraws n fun ha => ?_
  have hs : s.stage = BitVec.ofNat 5 k := by simpa using ha
  have hval : (BitVec.ofNat 5 k).toNat = k := toNat_ofNat_of_lt (by omega)
  have hd : body (s.withDraws n) = (body s).map (fun t => t.withDraws n) := hbody (h.built (by rw [hs, hval]) hk.le)
  unfold BodyIgnoresDraws
  simp only [hd]
  cases body s with
  | ok t => rfl
  | error f => rfl

theorem commandResult_withDraws_of_ne_encode (h : s.Sound) (i : Instr) (hi : i ≠ .encode) :
    commandResult i (s.withDraws n) = (commandResult i s).withDraws n := by
  cases i with
  | nop => exact command_withDraws (body := .ok) n fun _ => rfl
  | clr =>
    change (if s.stage = stageErr then (s.withDraws n).cleared
        else (s.withDraws n).command running fun s => .ok s.cleared) =
      (if s.stage = stageErr then s.cleared else s.command running fun s => .ok s.cleared).withDraws n
    split
    · rfl
    · exact command_withDraws n fun _ => rfl
  | encode => exact absurd rfl hi
  | gfmul a b => exact command_withDraws (body := fun s => .ok (s.setP (gfmul a b))) n fun _ => rfl
  | gfadd a b => exact command_withDraws (body := fun s => .ok (s.setP (gfadd a b))) n fun _ => rfl
  | genp a => exact command_stage0_withDraws n h fun _ => genp_ignoresDraws n a
  | pmull a => exact command_stage0_withDraws n h fun hb => pmull_ignoresDraws n hb a
  | vsel => exact pipeline_withDraws n h (vsel_ignoresDraws n)
  | bser => exact pipeline_withDraws n h (bser_ignoresDraws n)
  | pack => exact pipeline_withDraws n h (pack_ignoresDraws n)
  | rsgen => exact pipeline_withDraws n h (rsgen_ignoresDraws n)
  | prem => exact pipeline_withDraws n h (prem_ignoresDraws n)
  | cat => exact pipeline_withDraws n h (cat_ignoresDraws n)
  | mclr => exact pipeline_withDraws n h (mclr_ignoresDraws n)
  | pfind => exact pipeline_withDraws n h (pfind_ignoresDraws n)
  | ptime => exact pipeline_withDraws n h (ptime_ignoresDraws n)
  | pdark => exact pipeline_withDraws n h (pdark_ignoresDraws n)
  | palign => exact pipeline_withDraws n h (palign_ignoresDraws n)
  | rfmt => exact pipeline_withDraws n h (rfmt_ignoresDraws n)
  | rver => exact pipeline_withDraws n h (rver_ignoresDraws n)
  | zplace => exact pipeline_withDraws n h (zplace_ignoresDraws n)
  | mask => exact pipeline_withDraws n h (mask_ignoresDraws n)
  | wfmt => exact pipeline_withDraws n h (wfmt_ignoresDraws n)
  | wver => exact pipeline_withDraws n h (wver_ignoresDraws n)

/-- A chain of commands that keep the invariant and take no draw takes no draw. -/
theorem runChain_withDraws (h : s.Sound) (fs : List (State → State))
    (hfs : ∀ f ∈ fs, ∀ t : State, t.Sound → (f t).Sound ∧ f (t.withDraws n) = (f t).withDraws n) :
    runChain (s.withDraws n) fs = (runChain s fs).withDraws n := by
  induction fs generalizing s with
  | nil => rfl
  | cons f fs ih =>
    obtain ⟨hsound, hdraws⟩ := hfs f List.mem_cons_self s h
    have hstage : (s.withDraws n).stage = s.stage := rfl
    have hrest := fun g hg => hfs g (List.mem_cons_of_mem f hg)
    rw [runChain_cons, runChain_cons, hstage]
    split
    · exact ih h hrest
    · rw [hdraws]
      exact ih hsound hrest

theorem commandResult_withDraws (h : s.Sound) (i : Instr) :
    commandResult i (s.withDraws n) = (commandResult i s).withDraws n := by
  by_cases hi : i = .encode
  · subst hi
    refine command_stage0_withDraws (body := fun s => .ok (runChain s (pipelineStates params))) n h fun _ => ?_
    refine congrArg Except.ok (runChain_withDraws n h _ fun f hf t ht => ?_)
    obtain ⟨j, _, hne, rfl⟩ := mem_pipelineStates hf
    exact ⟨sound_commandResult ht j, commandResult_withDraws_of_ne_encode n ht j hne⟩
  · exact commandResult_withDraws_of_ne_encode n h i hi

end

/-- Settles O60: a sound state holds a value wherever a command reads one. -/
theorem commandsNeverUseDraws : Obligations.CommandsNeverUseDraws := by
  unfold Obligations.CommandsNeverUseDraws
  intro i s t n h e
  rw [exec_eq_commandResult] at e ⊢
  obtain rfl := Host.Outcome.next.inj e
  exact congrArg Host.Outcome.next (commandResult_withDraws n h i)

end Sys2Proof.Machine
end

section
/-! PROOFS. The host's access (R60 to R64): which accesses are illegal, in the numbers of R63; what a read returns; the
writes of a payload. -/

namespace Sys2Proof.Machine

open Sys2Proof.Config Sys2Proof.Claims

/-! ## Space ids and register numbers -/

@[simp] theorem SpaceId.ofId_id (x : SpaceId) : SpaceId.ofId x.id = some x := by cases x <;> rfl

@[simp] theorem Reg.ofNumber_number (r : Reg) : Reg.ofNumber r.number = some r := by cases r <;> rfl

theorem SpaceId.id_lt (x : SpaceId) : x.id < 13 := by cases x <;> decide

theorem SpaceId.ofId_of_ge {n : Nat} (h : 13 ≤ n) : SpaceId.ofId n = none := List.getElem?_eq_none h

theorem Reg.ofNumber_of_ge {n : Nat} (h : 14 ≤ n) : Reg.ofNumber n = none := List.getElem?_eq_none h

theorem SpaceId.exists_id_eq {n : Nat} (h : n < 13) : ∃ x : SpaceId, x.id = n := by
  have hall : ∀ i : Fin 13, ((SpaceId.ofId i).getD .reg).id = i := by decide
  exact ⟨_, hall ⟨n, h⟩⟩

theorem Reg.exists_number_eq {n : Nat} (h : n < 14) : ∃ r : Reg, r.number = n := by
  have hall : ∀ i : Fin 14, ((Reg.ofNumber i).getD .cmd).number = i := by decide
  exact ⟨_, hall ⟨n, h⟩⟩

/-! ## Which accesses are illegal -/

theorem SpaceId.hasElement_iff (x : SpaceId) (idx : Nat) :
    x.hasElement idx = true ↔ idx < x.depth ∧ ¬ (x = .info ∧ 1 ≤ idx ∧ idx ≤ 6) := by
  rw [SpaceId.hasElement, Bool.and_eq_true, decide_eq_true_iff]
  refine and_congr_right fun _ => ?_
  rw [Bool.not_eq_true', ← Bool.not_eq_true]
  simp [and_assoc]

theorem SpaceId.depths_id (x : SpaceId) : depths.getD x.id 0 = x.depth := by cases x <;> rfl

theorem SpaceId.id_eq_twelve_iff (x : SpaceId) : x.id = 12 ↔ x = .info := by cases x <;> decide

theorem SpaceId.id_eq_zero_iff (x : SpaceId) : x.id = 0 ↔ x = .reg := by cases x <;> decide

/-- R63 (a), (b), for an id that names a space. -/
theorem noElement_id_iff (x : SpaceId) (idx : Nat) : NoElement x.id idx ↔ x.hasElement idx = false := by
  have hid := x.id_lt
  rw [← Bool.not_eq_true, x.hasElement_iff, NoElement, x.depths_id, x.id_eq_twelve_iff]
  constructor
  · rintro (h | h | h) ⟨hlt, hinfo⟩
    · omega
    · omega
    · exact hinfo h
  · intro h
    by_cases hlt : idx < x.depth
    · exact .inr (.inr (not_not.mp fun hinfo => h ⟨hlt, hinfo⟩))
    · exact .inr (.inl (not_lt.mp hlt))

/-- The model's check is R63 (a) to (c). -/
theorem illegalRead_iff (space idx : Nat) : illegalRead space idx = true ↔ IllegalRead space idx := by
  by_cases hsp : space < 13
  · obtain ⟨x, rfl⟩ := SpaceId.exists_id_eq hsp
    rw [IllegalRead, noElement_id_iff, x.id_eq_zero_iff]
    simp [illegalRead]
  · have h : 13 ≤ space := not_lt.mp hsp
    simp [illegalRead, IllegalRead, NoElement, SpaceId.ofId_of_ge h, h]

/-- What R63 (a), (b), (d), (e), (f) leave legal: any word for `CMD`, and in stage 0 a fitting value for `LEN` and for
each element of `IN`. -/
theorem illegalWrite_eq_false_iff (s : State) (space idx v : Nat) :
    s.illegalWrite space idx v = false ↔
      (space = 0 ∧ idx = 0 ∧ v < 2 ^ 32) ∨ (space = 0 ∧ idx = 2 ∧ s.stage = 0#5 ∧ v < 2 ^ 16) ∨
        (space = 1 ∧ idx < 512 ∧ s.stage = 0#5 ∧ v < 2 ^ 8) := by
  by_cases hsp : space < 13
  · obtain ⟨x, rfl⟩ := SpaceId.exists_id_eq hsp
    cases x with
    | reg =>
      by_cases hreg : idx < 14
      · obtain ⟨r, rfl⟩ := Reg.exists_number_eq hreg
        cases r <;> simp [State.illegalWrite, SpaceId.id, Reg.number, SpaceId.ofId, Reg.ofNumber]
      · have h : 14 ≤ idx := not_lt.mp hreg
        have hcmd : idx ≠ 0 := by omega
        have hlen : idx ≠ 2 := by omega
        simp [State.illegalWrite, SpaceId.id, SpaceId.ofId, Reg.ofNumber_of_ge h, hcmd, hlen]
    | inp => simp [State.illegalWrite, SpaceId.id, SpaceId.ofId, SpaceId.hasElement_iff, SpaceId.depth, and_assoc]
    | bs | cw | gen | rem | val | rsv | exp | log | vtab | atab | info =>
      simp [State.illegalWrite, SpaceId.id, SpaceId.ofId]
  · have hreg : space ≠ 0 := by omega
    have hinp : space ≠ 1 := by omega
    simp [State.illegalWrite, SpaceId.ofId_of_ge (not_lt.mp hsp), hreg, hinp]

/-- The model's check covers R63 (a), (b), (d), (e), (f). -/
theorem illegalWrite_eq_true {s : State} {space idx v : Nat} (h : IllegalWrite s space idx v) :
    s.illegalWrite space idx v = true := by
  rw [← Bool.not_eq_false, illegalWrite_eq_false_iff]
  rintro (⟨rfl, rfl, hv⟩ | ⟨rfl, rfl, hs, hv⟩ | ⟨rfl, hidx, hs, hv⟩)
  · have hdepth : depths.getD 0 0 = 14 := rfl
    omega
  · have hdepth : depths.getD 0 0 = 14 := rfl
    rcases h with h | h | ⟨_, hstage⟩ | h
    · omega
    · omega
    · exact hstage hs
    · omega
  · have hdepth : depths.getD 1 0 = 512 := rfl
    rcases h with h | h | ⟨_, hstage⟩ | h
    · omega
    · omega
    · exact hstage hs
    · omega

/-! ## Illegal accesses -/

theorem State.raise_respond (s : State) (f : Fault) (r : Option Word) :
    (s.respond r).raise f = (s.raise f).respond r := by
  by_cases h : s.stage = stageErr
  · rw [s.raise_of_eq f h, State.raise_of_eq (s.respond r) f h]
  · rw [s.raise_of_ne f h, State.raise_of_ne (s.respond r) f h]
    rfl

theorem perform_read_illegal {s : State} {space idx : Nat} (h : illegalRead space idx = true) :
    perform (.read space idx) s = .next ((s.raise .acc).respond (some (draw s.draws space idx))) := by
  simp [perform, State.memRead, h]

theorem perform_write_illegal {s : State} {space idx v : Nat} (h : s.illegalWrite space idx v = true) :
    perform (.write space idx v) s = .next ((s.raise .acc).respond none) := by
  have h' : (s.respond none).illegalWrite space idx v = true := h
  simp [perform, memWrite, h', State.raise_respond]

/-- Settles O55: the fault entry of R245 is the statement's, and both checks of the model are R63's. -/
theorem illegalAccessRaisesAcc : Obligations.IllegalAccessRaisesAcc := by
  unfold Obligations.IllegalAccessRaisesAcc
  constructor
  · intro s space idx h
    exact ⟨_, perform_read_illegal ((illegalRead_iff space idx).mpr h)⟩
  · intro s space idx v h
    exact ⟨_, perform_write_illegal (illegalWrite_eq_true h)⟩

/-! ## The payload -/

theorem perform_write_len {s : State} {v : Nat} (hs : s.stage = 0#5) (hv : v < 2 ^ 16) :
    perform (.write 0 2 v) s = .next ((s.respond none).setLen (BitVec.ofNat 16 v)) := by
  have hlegal : (s.respond none).illegalWrite 0 2 v = false :=
    (illegalWrite_eq_false_iff _ _ _ _).mpr (.inr (.inl ⟨rfl, rfl, hs, hv⟩))
  simp [perform, memWrite, hlegal, SpaceId.ofId, State.store]

theorem perform_write_inp {s : State} {k v : Nat} (hs : s.stage = 0#5) (hk : k < 512) (hv : v < 2 ^ 8) :
    perform (.write 1 k v) s =
      .next ((s.respond none).setInp (s.inp.write inDepth k (BitVec.ofNat 8 v))) := by
  have hlegal : (s.respond none).illegalWrite 1 k v = false :=
    (illegalWrite_eq_false_iff _ _ _ _).mpr (.inr (.inr ⟨rfl, hk, hs, hv⟩))
  simp [perform, memWrite, hlegal, SpaceId.ofId, State.store]

/-- Settles O57. -/
theorem hostWritesPayload : Obligations.HostWritesPayload := by
  unfold Obligations.HostWritesPayload
  constructor
  · intro s v hs hv
    exact ⟨none, perform_write_len hs hv⟩
  · intro s k v hs hk hv
    refine ⟨_, perform_write_inp hs hk hv, rfl, fun j => ?_⟩
    rw [State.setInp_inp, Memory.read_write]
    simp [hk]

/-! ## What a legal read returns -/

/-- A content shown to the host fits the width of what holds it. -/
theorem toNat_lt_of_map_setWidth {w : Nat} {a : Option (BitVec w)} {d : Word} (h : a.map (·.setWidth 32) = some d) :
    d.toNat < 2 ^ w := by
  obtain ⟨v, _, rfl⟩ := Option.map_eq_some_iff.mp h
  rw [BitVec.toNat_setWidth]
  exact (Nat.mod_le _ _).trans_lt v.isLt

/-- Zero-extension keeps the number. -/
theorem map_toNat_map_setWidth {w : Nat} (a : Option (BitVec w)) (hw : w ≤ 32) :
    (a.map (·.setWidth 32)).map BitVec.toNat = a.map BitVec.toNat := by
  cases a with
  | none => rfl
  | some v => exact congrArg some (BitVec.toNat_setWidth_of_le hw)

theorem State.peekReg_lt {s : State} {r : Reg} {d : Word} (h : s.peekReg r = some d) : d.toNat < 2 ^ r.width := by
  cases r with
  | cmd => exact nomatch h
  | status => exact d.isLt
  | len | ver | size | tot | ec | dat | blen | ndc | nac | gdeg | p | npl => exact toNat_lt_of_map_setWidth h

theorem State.peek_lt {s : State} {p : Params} {x : SpaceId} {idx : Nat} {d : Word} (h : s.peek p x idx = some d) :
    d.toNat < 2 ^ elementWidth x idx := by
  cases x with
  | reg =>
    obtain ⟨r, hr, hd⟩ := Option.bind_eq_some_iff.mp h
    rw [elementWidth, hr]
    exact State.peekReg_lt hd
  | inp | bs | cw | gen | rem | val | rsv | exp | log | vtab | atab | info => exact toNat_lt_of_map_setWidth h

/-- Content or draw, the answer has the element's width (R64). -/
theorem State.readValue_lt (p : Params) (s : State) (x : SpaceId) (idx : Nat) :
    (s.readValue p x idx).toNat < 2 ^ elementWidth x idx := by
  unfold State.readValue
  cases h : s.peek p x idx with
  | some d => exact State.peek_lt h
  | none => exact toNat_lt_of_map_setWidth (a := some (s.drawBits x idx (elementWidth x idx))) rfl

theorem widthOf_id {x : SpaceId} {idx : Nat} (h : x.hasElement idx = true) : widthOf x.id idx = elementWidth x idx := by
  cases x with
  | reg =>
    obtain ⟨hidx, _⟩ := (SpaceId.hasElement_iff .reg idx).mp h
    obtain ⟨r, rfl⟩ := Reg.exists_number_eq hidx
    cases r <;> rfl
  | inp | bs | cw | gen | rem | val | rsv | exp | log | vtab | atab | info => rfl

/-! ### The content, in the numbers of the spec -/

theorem State.registerContent_eq (s : State) {r : Reg} (hr : r ≠ .status) :
    registerContent s r.number = (s.peekReg r).map BitVec.toNat := by
  cases r with
  | cmd => rfl
  | status => exact absurd rfl hr
  | len | ver | size | tot | ec | dat | blen | ndc | nac | gdeg | p | npl =>
    exact (map_toNat_map_setWidth _ (by decide)).symm

/-- R40: the model's rows are the printed table. -/
theorem vtabContent_eq : ∀ i < 40, vtabContent (i / 4 + 1) (i % 4) = (romVtab params i).map BitVec.toNat := by decide

/-- R41: the model's rows are the printed coordinates with their counts. -/
theorem atabContent_eq : ∀ i < 40, atabContent (i / 4 + 1) (i % 4) = (romAtab i).map BitVec.toNat := by decide

/-- R42: the model's literals are the printed ones. -/
theorem infoContent_eq : ∀ i < 11, infoContent i = (romInfo i).map BitVec.toNat := by decide

/-- The content of an element is what the host is shown of it (R61); only `STATUS`, a view, is shown without one. -/
theorem peek_of_content {s : State} {x : SpaceId} {idx n : Nat} (hel : x.hasElement idx = true)
    (h : content s x.id idx = some n) : (s.peek params x idx).map BitVec.toNat = some n := by
  obtain ⟨hidx, _⟩ := (x.hasElement_iff idx).mp hel
  rw [← h]
  cases x with
  | reg =>
    obtain ⟨r, rfl⟩ := Reg.exists_number_eq hidx
    have hr : r ≠ .status := by
      rintro rfl
      exact nomatch h
    rw [State.peek, Reg.ofNumber_number]
    exact (s.registerContent_eq hr).symm
  | inp | bs | cw | gen | rem | val | rsv | exp | log => exact map_toNat_map_setWidth _ (by decide)
  | vtab => exact (map_toNat_map_setWidth _ (by decide)).trans (vtabContent_eq idx hidx).symm
  | atab => exact (map_toNat_map_setWidth _ (by decide)).trans (atabContent_eq idx hidx).symm
  | info => exact (map_toNat_map_setWidth _ (by decide)).trans (infoContent_eq idx hidx).symm

theorem readValue_of_content {s : State} {x : SpaceId} {idx n : Nat} (hel : x.hasElement idx = true)
    (h : content s x.id idx = some n) : (s.readValue params x idx).toNat = n := by
  obtain ⟨d, hd, rfl⟩ := Option.map_eq_some_iff.mp (peek_of_content hel h)
  rw [State.readValue, hd, Option.getD_some]

/-! ### The read -/

theorem exists_space_of_legalRead {space idx : Nat} (h : ¬ IllegalRead space idx) :
    ∃ x : SpaceId, x.id = space ∧ x.hasElement idx = true := by
  have helement : ¬ NoElement space idx := fun hno => h (.inl hno)
  obtain ⟨x, rfl⟩ := SpaceId.exists_id_eq (not_le.mp fun hsp => helement (.inl hsp))
  exact ⟨x, rfl, Bool.of_not_eq_false fun hno => helement ((noElement_id_iff x idx).mpr hno)⟩

theorem perform_read_legal {s : State} {x : SpaceId} {idx : Nat} (h : ¬ IllegalRead x.id idx) :
    perform (.read x.id idx) s = .next (s.respond (some (s.readValue params x idx))) := by
  have hlegal : illegalRead x.id idx = false := Bool.of_not_eq_true fun hbad => h ((illegalRead_iff _ _).mp hbad)
  simp [perform, State.memRead, hlegal]

/-- A legal read of an element with a content returns it. -/
theorem perform_read_of_content {s : State} {space idx n : Nat} (h : ¬ IllegalRead space idx)
    (hn : content s space idx = some n) :
    perform (.read space idx) s = .next (s.respond (some (BitVec.ofNat 32 n))) := by
  obtain ⟨x, rfl, hel⟩ := exists_space_of_legalRead h
  rw [perform_read_legal h, ← readValue_of_content hel hn, BitVec.ofNat_toNat, BitVec.setWidth_eq]

/-! ### The rows of the printed tables -/

theorem bounds_of_vtabContent {v f n : Nat} (h : vtabContent v f = some n) : (1 ≤ v ∧ v ≤ 10) ∧ f < 4 := by
  have hver : ∀ row ∈ versionRanges, 1 ≤ row.ver ∧ row.ver ≤ 10 := by decide
  obtain ⟨row, hrow, hf⟩ := Option.bind_eq_some_iff.mp h
  obtain rfl : row.ver = v := beq_iff_eq.mp (List.find?_some (p := fun r : VersionRange => r.ver == v) hrow)
  exact ⟨hver row (List.mem_of_find?_eq_some hrow), (List.getElem?_eq_some_iff.mp hf).1⟩

theorem bounds_of_atabContent {v j n : Nat} (h : atabContent v j = some n) : (1 ≤ v ∧ v ≤ 10) ∧ j < 4 := by
  unfold atabContent at h
  split at h
  · next hrow => exact and_assoc.mpr hrow
  · exact nomatch h

theorem bounds_of_infoContent {i n : Nat} (h : infoContent i = some n) : i = 0 ∨ (7 ≤ i ∧ i ≤ 10) := by
  unfold infoContent at h
  split at h
  · next h0 => exact .inl h0
  · split at h
    · next h7 => exact .inr h7
    · exact nomatch h

/-- Where the spec puts field `f` of row `v` of `VTAB` and `ATAB` (R40, R41), and what stands there. -/
theorem tableIndex {v f : Nat} (hv : 1 ≤ v ∧ v ≤ 10) (hf : f < 4) :
    (v - 1) * 4 + f < 40 ∧ ((v - 1) * 4 + f) / 4 + 1 = v ∧ ((v - 1) * 4 + f) % 4 = f := by
  omega

/-- Settles O56: the answer is the content or a draw of the width, and a table's row is four elements of its space. -/
theorem legalReadReturnsContent : Obligations.LegalReadReturnsContent := by
  unfold Obligations.LegalReadReturnsContent
  refine ⟨fun s space idx h => ?_, fun s v f n h => ?_, fun s v j n h => ?_, fun s i n h => ?_⟩
  · obtain ⟨x, rfl, hel⟩ := exists_space_of_legalRead h
    refine ⟨_, perform_read_legal h, ?_, fun n hn => readValue_of_content hel hn⟩
    rw [widthOf_id hel]
    exact s.readValue_lt params x idx
  · obtain ⟨hv, hf⟩ := bounds_of_vtabContent h
    obtain ⟨hidx, hrow, hcol⟩ := tableIndex hv hf
    refine perform_read_of_content (by simp [depths, hidx]) ?_
    rw [content, hrow, hcol, h]
  · obtain ⟨hv, hj⟩ := bounds_of_atabContent h
    obtain ⟨hidx, hrow, hcol⟩ := tableIndex hv hj
    refine perform_read_of_content (by simp [depths, hidx]) ?_
    rw [content, hrow, hcol, h]
  · have hi := bounds_of_infoContent h
    exact perform_read_of_content (by simp [depths]; omega) h

end Sys2Proof.Machine
end

section
/-! PROOFS. The words of the opcode map: the formats of R91 as numbers, the decoder and the encoder as two directions of
one table (R92, R94), and the words that the table does not list (R95). -/

namespace Sys2Proof

open Sys2Proof.Machine Sys2Proof.Claims Sys2Proof.Laws

/-! ## Words as numbers -/

theorem opField_toNat (w : Word) : (opField w).toNat = w.toNat / 2 ^ 24 := by
  rw [opField, BitVec.extractLsb'_toNat, Nat.shiftRight_eq_div_pow]
  omega

theorem aField_toNat (w : Word) : (aField w).toNat = w.toNat / 2 ^ 16 % 2 ^ 8 := by
  rw [aField, BitVec.extractLsb'_toNat, Nat.shiftRight_eq_div_pow]

theorem bField_toNat (w : Word) : (bField w).toNat = w.toNat / 2 ^ 8 % 2 ^ 8 := by
  rw [bField, BitVec.extractLsb'_toNat, Nat.shiftRight_eq_div_pow]

/-- How many bits at the low end a format reserves (R91). -/
def Format.reservedBits : Format → Nat
  | .n => 24
  | .a => 16
  | .ab => 8

theorem Format.reservedZero_iff (f : Format) (w : Word) :
    f.reservedZero w = true ↔ w.toNat % 2 ^ f.reservedBits = 0 := by
  have hlow : ∀ n, w.extractLsb' 0 n = 0#n ↔ w.toNat % 2 ^ n = 0 := fun n => by
    rw [← BitVec.toNat_inj, BitVec.extractLsb'_toNat, Nat.shiftRight_zero, BitVec.toNat_ofNat, Nat.zero_mod]
  cases f with
  | n | a | ab => exact beq_iff_eq.trans (hlow _)

theorem wordA_eq_wordAB (op a : Byte) : wordA op a = wordAB op a 0#8 := by simp [wordAB]

theorem wordN_eq_wordAB (op : Byte) : wordN op = wordAB op 0#8 0#8 := by simp [wordAB, wordA]

/-- The three bytes of a word are disjoint, so they add up. -/
theorem wordAB_toNat (op a b : Byte) :
    (wordAB op a b).toNat = 2 ^ 24 * op.toNat + 2 ^ 16 * a.toNat + 2 ^ 8 * b.toNat := by
  have hbyte : ∀ x : Byte, (x.setWidth 32).toNat = x.toNat := fun _ => BitVec.toNat_setWidth_of_le (by decide)
  have hop := op.isLt
  have ha := a.isLt
  have hb := b.isLt
  have hlow := toNat_or_shiftLeft 0#32 (b.setWidth 32) 8 (by decide) (by rw [hbyte]; omega)
  have hmid := toNat_or_shiftLeft (0#32 ||| b.setWidth 32 <<< 8) (a.setWidth 32) 16
    (by rw [hlow, hbyte, BitVec.toNat_zero]; omega) (by rw [hbyte]; omega)
  have hhigh := toNat_or_shiftLeft (0#32 ||| b.setWidth 32 <<< 8 ||| a.setWidth 32 <<< 16) (op.setWidth 32) 24
    (by rw [hmid, hlow, hbyte, hbyte, BitVec.toNat_zero]; omega) (by rw [hbyte]; omega)
  have hword : wordAB op a b = 0#32 ||| b.setWidth 32 <<< 8 ||| a.setWidth 32 <<< 16 ||| op.setWidth 32 <<< 24 := by
    rw [wordAB, wordA, wordN, BitVec.zero_or, BitVec.or_comm, BitVec.or_comm (op.setWidth 32 <<< 24),
      ← BitVec.or_assoc]
  rw [hword, hhigh, hmid, hlow, hbyte, hbyte, hbyte, BitVec.toNat_zero]
  omega

theorem opField_wordAB (op a b : Byte) : opField (wordAB op a b) = op := by
  have ha := a.isLt
  have hb := b.isLt
  refine BitVec.eq_of_toNat_eq ?_
  rw [opField_toNat, wordAB_toNat]
  omega

theorem opField_wordA (op a : Byte) : opField (wordA op a) = op := by
  rw [wordA_eq_wordAB, opField_wordAB]

theorem opField_wordN (op : Byte) : opField (wordN op) = op := by
  rw [wordN_eq_wordAB, opField_wordAB]

/-- The word of a format with these fields; a field that the format reserves is zero (R91). -/
def Format.word (f : Format) (op a b : Byte) : Word :=
  match f with
  | .n => wordN op
  | .a => wordA op a
  | .ab => wordAB op a b

/-- A word whose reserved field is zero is put together from its fields. -/
theorem Format.word_fields {f : Format} {w : Word} (h : f.reservedZero w = true) :
    f.word (opField w) (aField w) (bField w) = w := by
  have hw := w.isLt
  have hzero : (0#8).toNat = 0 := rfl
  have hres := (f.reservedZero_iff w).mp h
  refine BitVec.eq_of_toNat_eq ?_
  cases f with
  | n =>
    rw [Format.reservedBits] at hres
    rw [Format.word, wordN_eq_wordAB, wordAB_toNat, opField_toNat, hzero]
    omega
  | a =>
    rw [Format.reservedBits] at hres
    rw [Format.word, wordA_eq_wordAB, wordAB_toNat, opField_toNat, aField_toNat, hzero]
    omega
  | ab =>
    rw [Format.reservedBits] at hres
    rw [Format.word, wordAB_toNat, opField_toNat, aField_toNat, bField_toNat]
    omega

/-! ## The decoder -/

/-- R92: a word is a command exactly when its opcode has a row and the reserved field of the row's format is zero. -/
theorem decode_eq_ok_iff {w : Word} {i : Instr} :
    decode w = .ok i ↔
      ∃ row, opcodeRow (opField w) = some row ∧ row.format.reservedZero w = true ∧
        row.build (aField w) (bField w) = i := by
  unfold decode
  cases opcodeRow (opField w) with
  | none => simp
  | some row => cases hres : row.format.reservedZero w <;> simp [hres]

theorem decode_wordN {op : Byte} {i : Instr} (h : opcodeRow op = some ⟨op, .n, fun _ _ => i⟩) :
    decode (wordN op) = .ok i :=
  decode_eq_ok_iff.mpr ⟨_, (congrArg opcodeRow (opField_wordN op)).trans h, reserved_wordN op, rfl⟩

theorem decode_wordA {op : Byte} {build : Byte → Instr} (h : opcodeRow op = some ⟨op, .a, fun a _ => build a⟩)
    (a : Byte) : decode (wordA op a) = .ok (build a) :=
  decode_eq_ok_iff.mpr ⟨_, (congrArg opcodeRow (opField_wordA op a)).trans h, reserved_wordA op a,
    congrArg build (aField_wordA op a)⟩

theorem decode_wordAB {op : Byte} {build : Byte → Byte → Instr} (h : opcodeRow op = some ⟨op, .ab, build⟩)
    (a b : Byte) : decode (wordAB op a b) = .ok (build a b) :=
  decode_eq_ok_iff.mpr ⟨_, (congrArg opcodeRow (opField_wordAB op a b)).trans h, reserved_wordAB op a b,
    congrArg₂ build (aField_wordAB op a b) (bField_wordAB op a b)⟩

/-! ## The two directions -/

theorem decode_encode (i : Instr) : decode (encode i) = .ok i := by
  cases i with
  | gfmul a b | gfadd a b => exact decode_wordAB rfl a b
  | genp a | pmull a => exact decode_wordA rfl a
  | nop | clr | encode | vsel | bser | pack | rsgen | prem | cat | mclr | pfind | ptime | pdark | palign | rfmt | rver
  | zplace | mask | wfmt | wver => exact decode_wordN rfl

/-- R94, row by row: the encoder and the opcode map have the same opcode and format for each command. -/
theorem encode_build (a b : Byte) :
    ∀ row ∈ opcodeTable, encode (row.build a b) = row.format.word row.op a b := by
  simp [opcodeTable, controlRows, codewordRows, matrixRows, encode, Format.word]

theorem opcodeRow_eq_some {op : Byte} {row : OpcodeRow} (h : opcodeRow op = some row) :
    row ∈ opcodeTable ∧ row.op = op :=
  ⟨List.mem_of_find?_eq_some h, eq_of_beq (List.find?_some (p := fun row : OpcodeRow => row.op == op) h)⟩

theorem encode_of_decode {w : Word} {i : Instr} (h : decode w = .ok i) : encode i = w := by
  obtain ⟨row, hrow, hres, rfl⟩ := decode_eq_ok_iff.mp h
  obtain ⟨hmem, hop⟩ := opcodeRow_eq_some hrow
  rw [encode_build _ _ row hmem, hop, Format.word_fields hres]

/-- Settles O1: a word with a zero reserved field is put together from its fields, and the encoder agrees with the
opcode map row by row. -/
theorem decodeAndEncodeAgree : Obligations.DecodeAndEncodeAgree :=
  ⟨decode_encode, fun _ _ => encode_of_decode⟩

/-- The printed words are the encoder's. -/
theorem encode_specWords : ∀ x ∈ specWords, encode x.2 = x.1 := by decide

/-- Settles O2. -/
theorem specWordsDecode : Obligations.SpecWordsDecode := fun x hx => by
  rw [← encode_specWords x hx, decode_encode]

/-! ## Words that are no command -/

/-- The opcodes that R94 lists under a format. -/
def Format.opcodes : Format → List Nat
  | .n => opcodesN
  | .a => [0x12, 0x13]
  | .ab => [0x10, 0x11]

theorem op_mem_opcodes : ∀ row ∈ opcodeTable, row.op.toNat ∈ row.format.opcodes := by decide

theorem commandWord_of_format {w : Word} (f : Format) (hop : w.toNat / 2 ^ 24 ∈ f.opcodes)
    (hres : w.toNat % 2 ^ f.reservedBits = 0) : CommandWord w := by
  cases f with
  | n => exact .inl ⟨hop, hres⟩
  | a => exact .inr (.inl ⟨hop, hres⟩)
  | ab => exact .inr (.inr ⟨hop, hres⟩)

/-- Every word that decodes is one that R94 lists. -/
theorem commandWord_of_decode {w : Word} {i : Instr} (h : decode w = .ok i) : CommandWord w := by
  obtain ⟨row, hrow, hres, _⟩ := decode_eq_ok_iff.mp h
  obtain ⟨hmem, hop⟩ := opcodeRow_eq_some hrow
  refine commandWord_of_format row.format ?_ ((row.format.reservedZero_iff w).mp hres)
  rw [← opField_toNat, ← hop]
  exact op_mem_opcodes row hmem

end Sys2Proof

namespace Sys2Proof.Machine

open Sys2Proof.Claims

/-- R95, outside stage `ERR`. -/
theorem issue_of_not_commandWord {s : State} {w : Word} (hs : s.stage ≠ stageErr) (hw : ¬ CommandWord w) :
    issue w s = .next (s.faulted .ill) := by
  rcases issue_cases w s with ⟨h, _⟩ | ⟨h, _⟩ | ⟨_, i, hd, _⟩ | ⟨_, _, _, e⟩
  · exact absurd h hs
  · exact absurd h hs
  · exact absurd (commandWord_of_decode hd) hw
  · exact e

/-- Settles O3: what decodes is listed, so an unlisted word is rejected; a legal write to `CMD` issues its value. -/
theorem unlistedWordRaisesIll : Obligations.UnlistedWordRaisesIll := by
  unfold Obligations.UnlistedWordRaisesIll
  constructor
  · intro s w hs hw
    exact issue_of_not_commandWord hs hw
  · intro s w hs hlt hw
    exact ⟨none, (memWrite_cmd w (s.respond none) hlt).trans (issue_of_not_commandWord (s := s.respond none) hs hw)⟩

end Sys2Proof.Machine
end

section
/-! PROOFS. The faults of the polynomial commands (R96, R152, R153): what each body raises, and the stage test before
it (R112). -/

namespace Sys2Proof.Machine

open Sys2Proof.Claims

/-- A command of stage 0 whose body faults there. -/
theorem State.command_stage0_error {s : State} {body : State → Except Fault State} {f : Fault} (hs : s.stage = 0#5)
    (hb : body s = .error f) : s.command (fun k => k == 0#5) body = s.faulted f :=
  s.command_error _ _ _ (by rw [hs]; decide) (by rw [hs]; rfl) hb

/-- A command of stage 0 in another stage. -/
theorem State.command_stage0_seq {s : State} (body : State → Except Fault State) (h0 : s.stage ≠ 0#5)
    (herr : s.stage ≠ stageErr) : s.command (fun k => k == 0#5) body = s.faulted .seq :=
  s.command_seq _ _ herr (beq_false_of_ne h0)

theorem genpBody_of_gt {a : Byte} (s : State) (h : 30 < a.toNat) : genpBody a s = .error .ill :=
  if_neg (not_le.mpr h)

theorem pmullBody_of_none {s : State} (a : Byte) (h : s.gdeg = none) : pmullBody a s = .error .uninit := by
  simp [pmullBody, h]

theorem pmullBody_of_full {s : State} (a : Byte) (h : s.gdeg = some 30#5) : pmullBody a s = .error .ill := by
  simp [pmullBody, h]

/-- Settles O13: in stage 0 the body's fault, in any other `SEQ`. -/
theorem polynomialCommandsFault : Obligations.PolynomialCommandsFault := by
  unfold Obligations.PolynomialCommandsFault
  refine ⟨fun s a hs ha => ?_, fun s a hs hd => ?_, fun s a hs hd => ?_, fun s a h0 herr => ⟨?_, ?_⟩⟩
  · exact congrArg Host.Outcome.next (State.command_stage0_error hs (genpBody_of_gt s ha))
  · exact congrArg Host.Outcome.next (State.command_stage0_error hs (pmullBody_of_none a hd))
  · exact congrArg Host.Outcome.next (State.command_stage0_error hs (pmullBody_of_full a hd))
  · exact congrArg Host.Outcome.next (State.command_stage0_seq (genpBody a) h0 herr)
  · exact congrArg Host.Outcome.next (State.command_stage0_seq (pmullBody a) h0 herr)

end Sys2Proof.Machine
end

section
/-! PROOFS. The control commands and the stages (R92, R112 to R116): what each command does where it is not accepted and
in stage `ERR`, the stage it leaves, and `ENCODE` as the chain of its seventeen commands. -/

namespace Sys2Proof.Machine

open Sys2Proof.Config Sys2Proof.Claims

/-! ## Stages that accept a command -/

/-- No command is accepted after stage `DONE`. -/
theorem accepted_le {i : Instr} {k : Nat} (h : k ∈ acceptedStages i) : k ≤ 17 := by
  cases i
  case nop | clr | gfmul | gfadd => exact Nat.le_of_lt_succ (List.mem_range.mp h)
  all_goals exact List.mem_singleton.mp h ▸ by decide

theorem ne_err_of_accepted {i : Instr} {s : State} (h : s.stage.toNat ∈ acceptedStages i) : s.stage ≠ stageErr :=
  State.running_ne_err (accepted_le h)

/-! ## Every command as one body under one test of the stage -/

/-- A body of the pipeline in stage `k`, followed by its last action `STAGE <- STAGE + 1` (R113). -/
def advancing (k : Nat) (body : State → Except Fault State) (s : State) : Except Fault State :=
  (body s).map fun t => t.setStage (BitVec.ofNat 5 k + 1#5)

/-- What a command does in a stage that accepts it. -/
def commandBody : Instr → State → Except Fault State
  | .nop => .ok
  | .clr => fun s => .ok s.cleared
  | .encode => fun s => .ok (runChain s (pipelineStates params))
  | .gfmul a b => fun s => .ok (s.setP (gfmul a b))
  | .gfadd a b => fun s => .ok (s.setP (gfadd a b))
  | .genp a => genpBody a
  | .pmull a => pmullBody a
  | .vsel => advancing 0 (vselBody params)
  | .bser => advancing 1 bserBody
  | .pack => advancing 2 packBody
  | .rsgen => advancing 3 rsgenBody
  | .prem => advancing 4 premBody
  | .cat => advancing 5 catBody
  | .mclr => advancing 6 mclrBody
  | .pfind => advancing 7 pfindBody
  | .ptime => advancing 8 ptimeBody
  | .pdark => advancing 9 pdarkBody
  | .palign => advancing 10 palignBody
  | .rfmt => advancing 11 rfmtBody
  | .rver => advancing 12 rverBody
  | .zplace => advancing 13 zplaceBody
  | .mask => advancing 14 maskBody
  | .wfmt => advancing 15 (wfmtBody params)
  | .wver => advancing 16 (wverBody params)

/-- The stages of R112 as a test. -/
def accepts (i : Instr) (k : BitVec 5) : Bool := decide (k.toNat ∈ acceptedStages i)

theorem accepts_eq_running {i : Instr} (h : acceptedStages i = List.range 18) : accepts i = running :=
  funext fun k => decide_eq_decide.mpr (by rw [h, List.mem_range, Nat.lt_succ_iff])

theorem accepts_eq_beq {i : Instr} {k : Nat} (h : acceptedStages i = [k]) (hk : k < 2 ^ 5) :
    accepts i = fun x => x == BitVec.ofNat 5 k := by
  funext x
  rw [Bool.eq_iff_iff, accepts, decide_eq_true_iff, h, List.mem_singleton, beq_iff_eq, ← BitVec.toNat_inj,
    toNat_ofNat_of_lt hk]

/-- Outside stage `ERR` every command is its body under the test of R112; inside it, every command but `CLR`. -/
theorem commandResult_eq_command {i : Instr} {s : State} (h : i ≠ .clr ∨ s.stage ≠ stageErr) :
    commandResult i s = s.command (accepts i) (commandBody i) := by
  refine Eq.symm ?_
  cases i
  case clr =>
    exact (congrArg (s.command · _) (accepts_eq_running rfl)).trans (if_neg (h.resolve_left (absurd rfl))).symm
  case nop | gfmul | gfadd => exact congrArg (s.command · _) (accepts_eq_running rfl)
  all_goals exact congrArg (s.command · _) (accepts_eq_beq rfl (by decide))

/-- In stage `ERR` only `CLR` acts (R247). -/
theorem commandResult_of_err {i : Instr} {s : State} (hi : i ≠ .clr) (h : s.stage = stageErr) :
    commandResult i s = s :=
  (commandResult_eq_command (.inl hi)).trans (State.command_err _ _ s h)

/-- In a stage that R112 does not list for it, a command is the fault `SEQ`. -/
theorem commandResult_of_not_accepted {i : Instr} {s : State} (h : s.stage ≠ stageErr)
    (ha : s.stage.toNat ∉ acceptedStages i) : commandResult i s = s.faulted .seq :=
  (commandResult_eq_command (.inr h)).trans (State.command_seq _ _ s h (decide_eq_false ha))

/-- Settles O7. -/
theorem nopChangesNothing : Obligations.NopChangesNothing := by
  unfold Obligations.NopChangesNothing
  rintro s (h | h)
  · exact congrArg Host.Outcome.next (State.command_ok running .ok s s (State.running_ne_err h) (decide_eq_true h) rfl)
  · exact congrArg Host.Outcome.next (State.command_err running .ok s h)

/-! ## `ENCODE` as a chain -/

/-- The chain of `ENCODE` says what it does in every state: where `ENCODE` is not accepted, its first command is not
either, and the others find stage `ERR`. -/
theorem exec_encode_eq_runChain (s : State) : exec .encode s = .next (runChain s (pipelineStates params)) := by
  by_cases h0 : s.stage = 0#5
  · exact exec_encode_of_stage h0
  · rw [exec_eq_commandResult]
    by_cases herr : s.stage = stageErr
    · rw [commandResult_of_err (by decide) herr, runChain_err s _ herr]
    · have hout : s.stage.toNat ∉ [0] := fun h => h0 (BitVec.eq_of_toNat_eq (List.mem_singleton.mp h))
      rw [commandResult_of_not_accepted (i := .encode) herr hout, pipelineStates_eq, Instr.pipeline, List.map_cons,
        runChain_cons, if_neg herr, commandResult_of_not_accepted (i := .vsel) herr hout, runChain_err _ _ rfl]

/-- Commands issued one by one are the chain of them, since all but `CLR` do nothing in stage `ERR`. -/
theorem runAll_eq_runChain {is : List Instr} (his : ∀ i ∈ is, i ≠ .clr) (s : State) :
    runAll is s = .next (runChain s (is.map commandResult)) := by
  induction is generalizing s with
  | nil => rfl
  | cons i is ih =>
    obtain ⟨hi, his⟩ := List.forall_mem_cons.mp his
    have hskip : (if s.stage = stageErr then s else commandResult i s) = commandResult i s :=
      ite_eq_right_iff.mpr fun h => (commandResult_of_err hi h).symm
    rw [List.map_cons, runChain_cons, hskip, ← ih his, runAll, exec_eq_commandResult]

/-- Settles O44: both sides are the chain, and the expansions of R98 are the commands of the pipeline. -/
theorem encodeEqualsSeventeenCommands : Obligations.EncodeEqualsSeventeenCommands := by
  unfold Obligations.EncodeEqualsSeventeenCommands
  intro s
  have h : exec .encode s = runAll Instr.pipeline s := by
    rw [exec_encode_eq_runChain, pipelineStates_eq, runAll_eq_runChain (by decide)]
  exact ⟨h, h⟩

/-! ## The stage afterwards -/

/-- A body leaves stage `k`, or, where `faulty` allows it, raises a fault. -/
def EndsIn (k : Nat) (faulty : Bool) (r : Except Fault State) : Prop :=
  (∃ t, r = .ok t ∧ t.stage.toNat = k) ∨ ((∃ f, r = .error f) ∧ faulty = true)

theorem endsIn_advancing {s : State} {k : Nat} {body : State → Except Fault State} (hs : s.stage.toNat ∈ [k])
    (hk : k ≤ 16 := by decide) : EndsIn (s.stage.toNat + 1) true (advancing k body s) := by
  unfold advancing
  cases body s with
  | ok t =>
    refine .inl ⟨_, rfl, ?_⟩
    rw [State.setStage_stage, ← BitVec.ofNat_add, toNat_ofNat_of_lt (by omega), List.mem_singleton.mp hs]
  | error f => exact .inr ⟨⟨f, rfl⟩, rfl⟩

/-- The same for a body that raises no fault. -/
theorem endsIn_advancing_ok {s : State} {k : Nat} {body : State → Except Fault State} (hs : s.stage.toNat ∈ [k])
    (hok : ∃ t, body s = .ok t) (hk : k ≤ 16 := by decide) :
    EndsIn (s.stage.toNat + 1) false (advancing k body s) := by
  obtain ⟨t, ht⟩ := hok
  rcases endsIn_advancing (body := body) hs hk with h | ⟨⟨f, hf⟩, _⟩
  · exact .inl h
  · exact absurd hf (by simp [advancing, ht, Except.map])

theorem rverBody_ok (s : State) : ∃ t, rverBody s = .ok t := by
  unfold rverBody
  split
  · exact ⟨_, rfl⟩
  · exact ⟨_, rfl⟩

theorem wverBody_ok (p : Params) (s : State) : ∃ t, wverBody p s = .ok t := by
  unfold wverBody
  split
  · exact ⟨_, rfl⟩
  · exact ⟨_, rfl⟩

theorem endsIn_genpBody (a : Byte) (s : State) : EndsIn s.stage.toNat true (genpBody a s) := by
  unfold genpBody
  split
  · exact .inl ⟨_, rfl, rfl⟩
  · exact .inr ⟨⟨_, rfl⟩, rfl⟩

theorem endsIn_pmullBody (a : Byte) (s : State) : EndsIn s.stage.toNat true (pmullBody a s) := by
  unfold pmullBody
  split
  · exact .inr ⟨⟨_, rfl⟩, rfl⟩
  · split
    · exact .inr ⟨⟨_, rfl⟩, rfl⟩
    · exact .inl ⟨_, rfl, rfl⟩

theorem endsIn_commandBody {i : Instr} {s : State} (hi : i ≠ .encode) (ha : s.stage.toNat ∈ acceptedStages i) :
    EndsIn (stageAfter i s.stage.toNat) (canFault i) (commandBody i s) := by
  cases i
  case encode => exact absurd rfl hi
  case nop | clr | gfmul | gfadd => exact .inl ⟨_, rfl, rfl⟩
  case genp a => exact endsIn_genpBody a s
  case pmull a => exact endsIn_pmullBody a s
  case vsel | bser => exact endsIn_advancing ha
  case rver => exact endsIn_advancing_ok ha (rverBody_ok s)
  case wver => exact endsIn_advancing_ok ha (wverBody_ok params s)
  all_goals exact endsIn_advancing_ok ha ⟨_, rfl⟩

/-- An accepted command leaves the stage of R112's table, or 31 where it can fault; of `ENCODE` the chain says it. -/
theorem stage_of_ne_encode {i : Instr} {s : State} (hi : i ≠ .encode) (ha : s.stage.toNat ∈ acceptedStages i) :
    (commandResult i s).stage.toNat = stageAfter i s.stage.toNat ∨
      ((commandResult i s).stage = stageErr ∧ canFault i = true) := by
  have hs := ne_err_of_accepted ha
  have hacc : accepts i s.stage = true := decide_eq_true ha
  rw [commandResult_eq_command (.inr hs)]
  rcases endsIn_commandBody hi ha with ⟨t, ht, hstage⟩ | ⟨⟨f, hf⟩, hfault⟩
  · exact .inl (State.command_ok _ _ s t hs hacc ht ▸ hstage)
  · exact .inr ⟨State.command_error _ _ s f hs hacc hf ▸ s.faulted_stage f, hfault⟩

/-- In R112's table every command of the pipeline goes one stage on (R113). -/
theorem stageAfter_pipeline {i : Instr} (hi : i ∈ Instr.pipeline) (k : Nat) : stageAfter i k = k + 1 ∧ i ≠ .encode := by
  cases i
  case nop | clr | encode | gfmul | gfadd | genp | pmull => simp [Instr.pipeline] at hi
  all_goals exact ⟨rfl, by decide⟩

/-- A chain of pipeline commands accepted in stages `k`, `k`+1, ... runs to its end, or to 31 where one can fault. -/
theorem stage_runChain {is : List Instr} {k : Nat} {s : State} (his : is ⊆ Instr.pipeline)
    (ha : is.map acceptedStages = (List.range' k is.length).map fun j => [j]) (hs : s.stage.toNat = k) :
    (runChain s (is.map commandResult)).stage.toNat = k + is.length ∨
      ((runChain s (is.map commandResult)).stage = stageErr ∧ ∃ i ∈ is, canFault i = true) := by
  induction is generalizing k s with
  | nil => exact .inl hs
  | cons i is ih =>
    obtain ⟨hi, his⟩ := List.cons_subset.mp his
    rw [List.length_cons, List.range'_succ, List.map_cons, List.map_cons] at ha
    obtain ⟨hik, ha⟩ := List.cons.inj ha
    have hacc : s.stage.toNat ∈ acceptedStages i := hik ▸ List.mem_singleton.mpr hs
    rw [List.map_cons, runChain_cons, if_neg (ne_err_of_accepted hacc), List.length_cons]
    obtain ⟨hnext, hne⟩ := stageAfter_pipeline hi s.stage.toNat
    rcases stage_of_ne_encode hne hacc with h | ⟨h, hfault⟩
    · rcases ih his ha (h.trans (hs ▸ hnext)) with h' | ⟨h', j, hj, hfault⟩
      · exact .inl (h'.trans (by omega))
      · exact .inr ⟨h', j, List.mem_cons_of_mem i hj, hfault⟩
    · exact .inr ⟨(runChain_err _ _ h).symm ▸ h, i, List.mem_cons_self, hfault⟩

theorem stage_commandResult {i : Instr} {s : State} (ha : s.stage.toNat ∈ acceptedStages i) :
    (commandResult i s).stage.toNat = stageAfter i s.stage.toNat ∨
      ((commandResult i s).stage = stageErr ∧ canFault i = true) := by
  by_cases hi : i = .encode
  · subst hi
    have h := exec_encode_eq_runChain s
    rw [exec_eq_commandResult, pipelineStates_eq] at h
    rw [Host.Outcome.next.inj h]
    exact (stage_runChain (List.Subset.refl _) rfl (List.mem_singleton.mp ha)).imp_right fun h => ⟨h.1, rfl⟩
  · exact stage_of_ne_encode hi ha

/-- Settles O49: `SEQ` in an unlisted stage, the table's stage in a listed one; stage 31 holds for `NOP` and is left by
`CLR`. -/
theorem stagesAcceptCommandsAsTabled : Obligations.StagesAcceptCommandsAsTabled := by
  unfold Obligations.StagesAcceptCommandsAsTabled
  refine ⟨fun i s hs ha => ?_, fun i s t ha e => ?_, fun s t hs => ⟨?_, fun e => ?_⟩⟩
  · rw [exec_eq_commandResult, commandResult_of_not_accepted hs ha]
    rfl
  · rw [exec_eq_commandResult] at e
    exact Host.Outcome.next.inj e ▸ stage_commandResult ha
  · exact nopChangesNothing s (.inr hs)
  · rw [exec_clr (.inr hs)] at e
    exact Host.Outcome.next.inj e ▸ rfl

end Sys2Proof.Machine
end

section
/-! PROOFS. `ENCODE` completes for every written payload of at most 253 bytes (R116, R127, R166): a state of stage 0 ends
its encode as a state of a run with the same payload does, and of that one the invariant says what stage 17 holds. -/

namespace Sys2Proof.Machine

open Sys2Proof.Config Sys2Proof.Claims

/-! ## The table of R123 -/

/-- A row of R123 is the row of `VTAB` of its version, and its lengths are those that no smaller version takes. -/
theorem versionRanges_vtab : ∀ row ∈ versionRanges,
    row.ver ∈ List.range' 1 10 ∧ row.size = 4 * row.ver + 17 ∧ row.hi = vtab params row.ver 0 ∧
    row.tot = vtab params row.ver 1 ∧ row.ec = vtab params row.ver 2 ∧ row.dat = vtab params row.ver 3 ∧
    ∀ u < row.ver, 1 ≤ u → vtab params u 0 < row.lo := by
  decide

/-- R120 selects the version of the row of R123 that the length lies in. -/
theorem vsel_of_range {row : VersionRange} {l : Nat} (hrow : row ∈ versionRanges) (hlo : row.lo ≤ l)
    (hhi : l ≤ row.hi) : vsel params l = some row.ver := by
  obtain ⟨hver, _, hmax, _, _, _, hsmaller⟩ := versionRanges_vtab row hrow
  refine List.find?_range'_eq_some.mpr ⟨decide_eq_true (hmax ▸ hhi), hver, fun u hu hlt => ?_⟩
  have hshort := hsmaller u hlt hu
  simp only [Bool.not_eq_true', decide_eq_false_iff_not]
  omega

/-- What a finished encode holds in the registers and the grids, by the row of R123. -/
structure FinishedAs (row : VersionRange) (m : Nat) (t : State) : Prop where
  ver : t.ver = some (BitVec.ofNat 4 row.ver)
  size : t.size = some (BitVec.ofNat 6 row.size)
  tot : t.tot = some (BitVec.ofNat 9 row.tot)
  ec : t.ec = some (BitVec.ofNat 5 row.ec)
  dat : t.dat = some (BitVec.ofNat 9 row.dat)
  blen : t.blen = some (BitVec.ofNat 12 (8 * m))
  ndc : t.ndc = some (BitVec.ofNat 9 (max m row.dat))
  nac : t.nac = some (BitVec.ofNat 9 (max m row.dat + row.ec))
  gdeg : t.gdeg = some (BitVec.ofNat 5 row.ec)
  val : t.val.live = List.range (row.size * row.size)
  rsv : t.rsv.live = List.range (row.size * row.size)

/-- The content of stage 17 in the numbers of R123. -/
theorem State.Built.finishedAs {t : State} {row : VersionRange} (h : t.Built 17) (hrow : row ∈ versionRanges)
    (hlo : row.lo ≤ t.lengthN) (hhi : t.lengthN ≤ row.hi) :
    FinishedAs row (streamCodewords row.ver t.lengthN) t := by
  obtain ⟨_, hsize, _, htot, hec, hdat, _⟩ := versionRanges_vtab row hrow
  have hchosen : t.chosen = row.ver := by rw [State.chosen, vsel_of_range hrow hlo hhi, Option.getD_some]
  have hparity : t.parityCount = row.ec := by rw [State.parityCount, hchosen, hec]
  have hdata : t.dataCount = max (streamCodewords row.ver t.lengthN) row.dat := by
    rw [State.dataCount, hchosen, hdat]
  have hcells : t.cellCount = row.size * row.size := by rw [State.cellCount, hchosen, hsize]
  obtain ⟨_, hver', hsize', htot', hec', hdat'⟩ := h.selected (by decide)
  obtain ⟨_, hblen, _⟩ : _ ∧ t.blen = _ ∧ _ := h.stream
  obtain ⟨hgdeg, _⟩ : t.gdeg = _ ∧ _ := h.generator
  obtain ⟨hval, hrsv⟩ : t.val.live = _ ∧ t.rsv.live = _ := h.grids
  have hndc : t.ndc = _ := h.data
  have hnac : t.nac = _ := h.total
  rw [hchosen] at hver' hblen
  rw [hchosen, ← hsize] at hsize'
  rw [hchosen, ← htot] at htot'
  rw [hchosen, ← hec] at hec'
  rw [hchosen, ← hdat] at hdat'
  rw [hdata] at hndc hnac
  rw [hparity] at hgdeg hnac
  rw [hcells] at hval hrsv
  exact ⟨hver', hsize', htot', hec', hdat', hblen, hndc, hnac, hgdeg, hval, hrsv⟩

/-! ## The chain runs to stage 17 -/

/-- A payload with every byte written is collected (R126). -/
theorem State.payload_of_holdsBelow {s : State} {n : Nat} (h : s.inp.holdsBelow n = true) :
    ∃ d, s.payload n = some d := by
  have hall : ∀ k ∈ List.range n, (s.inp.read k).isSome = true := List.all_eq_true.mp h
  refine ⟨(List.range n).map fun k => (s.inp.read k).getD 0#8, ?_⟩
  calc (List.range n).mapM s.inp.read
      = (List.range n).mapM fun k => some ((s.inp.read k).getD 0#8) :=
        mapM_congr fun k hk => (Option.some_get (hall k hk)).symm.trans (by rw [Option.get_eq_getD])
    _ = _ := List.mapM_pure

/-- `VSEL` completes for every length of a row of R123. -/
theorem vselWith_of_range {s : State} {row : VersionRange} (hrow : row ∈ versionRanges) (hlo : row.lo ≤ s.lenV.toNat)
    (hhi : s.lenV.toNat ≤ row.hi) (hs : s.stage = 0#5) :
    vselWith params s = (s.selectVersion params row.ver).setStage 1#5 :=
  s.pipeline_ok 0#5 (vselBody params) _ (by decide) hs (by simp [vselBody, vsel_of_range hrow hlo hhi])

/-- `BSER` completes on a written payload. -/
theorem stage_bserState {s : State} (hinp : s.inp.holdsBelow s.lenV.toNat = true) (hs : s.stage = 1#5) :
    (bserState s).stage = 2#5 := by
  obtain ⟨d, hd⟩ := State.payload_of_holdsBelow hinp
  have hbody : ∃ t, bserBody s = .ok t := by simp [bserBody, hd]
  obtain ⟨t, ht⟩ := hbody
  rw [bserState, s.pipeline_ok 1#5 bserBody t (by decide) hs ht]
  rfl

/-- `VSEL` and `BSER` raise no fault on a written payload of a length of R123, and no later command can fault. -/
theorem stage_encode_of_payloadHeld {s t : State} {row : VersionRange} {l : Nat} (hrow : row ∈ versionRanges)
    (hlo : row.lo ≤ l) (hhi : l ≤ row.hi) (hs : s.stage = 0#5) (hheld : PayloadHeld s l)
    (e : exec .encode s = .next t) : t.stage = stageDone := by
  obtain ⟨hl, hlen, hinp⟩ := hheld
  obtain rfl : s.lenV.toNat = l := s.operand_toNat .len hlen hl
  have hvsel := vselWith_of_range hrow hlo hhi hs
  have hstage₁ : (vselWith params s).stage = 1#5 := hvsel ▸ rfl
  have hstage₂ : (bserState (vselWith params s)).stage = 2#5 := by
    rw [hvsel]
    exact stage_bserState hinp rfl
  have hchain : t = runChain (bserState (vselWith params s)) ((Instr.pipeline.drop 2).map commandResult) := by
    rw [← Host.Outcome.next.inj ((exec_encode_of_stage hs).symm.trans e), pipelineStates, runChain_cons,
      if_neg (hs ▸ by decide), runChain_cons, if_neg (hstage₁ ▸ by decide)]
    rfl
  have hrest : ∀ i ∈ Instr.pipeline.drop 2, canFault i = false := by decide
  rw [hchain]
  rcases stage_runChain (List.drop_subset 2 _) rfl (congrArg BitVec.toNat hstage₂) with h | ⟨_, i, hi, hfault⟩
  · exact BitVec.eq_of_toNat_eq h
  · exact absurd ((hrest i hi).symm.trans hfault) (by decide)

/-! ## A state of a run with the same payload -/

/-- A state of stage 0 in which nothing but the first `l` payload bytes of `s` has been written. -/
def loadedAs (s : State) (l : Nat) : State :=
  (s.cleared.setInp (Memory.writeRange inDepth [] 0 ((List.range l).map fun k => (s.inp.read k).getD 0#8))).setLen
    (BitVec.ofNat 16 l)

theorem built_loadedAs (s : State) (l : Nat) : (loadedAs s l).Built 0 := by
  obtain ⟨_, hmem⟩ := (built_cleared s).memory
  exact ⟨⟨Memory.ok_writeRange inDepth [] 0 _ rfl, hmem⟩, rfl, rfl, ⟨rfl, rfl, rfl, rfl, rfl⟩, ⟨rfl, rfl⟩, rfl, rfl, rfl,
    ⟨Nat.zero_le _, rfl⟩, rfl, ⟨rfl, rfl⟩, rfl⟩

theorem sound_loadedAs (s : State) (l : Nat) : (loadedAs s l).Sound := (built_loadedAs s l).sound rfl (by decide)

theorem sameInput_loadedAs {s : State} {l : Nat} (h : PayloadHeld s l) (hl : l ≤ inDepth) :
    SameInput s (loadedAs s l) := by
  obtain ⟨hlt, hlen, hinp⟩ := h
  have hall : ∀ k ∈ List.range l, (s.inp.read k).isSome = true := List.all_eq_true.mp hinp
  refine ⟨_, hlen, rfl, fun k hk => ?_⟩
  rw [toNat_ofNat_of_lt hlt] at hk
  obtain ⟨b, hb⟩ := Option.isSome_iff_exists.mp (hall k (List.mem_range.mpr hk))
  have hread := Memory.read_writeRange inDepth [] 0 ((List.range l).map fun k => (s.inp.read k).getD 0#8) k
    (by simpa using hl)
  refine Eq.trans ?_ hread.symm
  simp [hk, hb]

/-! ## The registers of a finished encode -/

/-- `ENCODE` writes no field but those of R21 and R68. -/
theorem eq_of_erased_encode_eq {s t : State} (h : erased .encode t = erased .encode s) :
    t = { s with
      stage := t.stage, ver := t.ver, size := t.size, tot := t.tot, ec := t.ec, dat := t.dat, blen := t.blen,
      ndc := t.ndc, nac := t.nac, gdeg := t.gdeg, npl := t.npl, bs := t.bs, cw := t.cw, gen := t.gen, rem := t.rem,
      val := t.val, rsv := t.rsv } :=
  congrArg (fun u : State => { u with
    stage := t.stage, ver := t.ver, size := t.size, tot := t.tot, ec := t.ec, dat := t.dat, blen := t.blen,
    ndc := t.ndc, nac := t.nac, gdeg := t.gdeg, npl := t.npl, bs := t.bs, cw := t.cw, gen := t.gen, rem := t.rem,
    val := t.val, rsv := t.rsv }) h

theorem erased_encode_of_done {s t : State} (e : exec .encode s = .next t) (h : t.stage = stageDone) :
    erased .encode t = erased .encode s := by
  rw [exec_eq_commandResult] at e
  obtain ⟨_, hkeep⟩ := Host.Outcome.next.inj e ▸ framed_commandResult s .encode
  exact hkeep (h ▸ by decide)

/-- An encode of a sound state that ends in stage 17 leaves what stage 17 holds of its payload. -/
theorem finishedAs_of_sound {s t : State} {row : VersionRange} (h : s.Sound) (hrow : row ∈ versionRanges)
    (hlo : row.lo ≤ s.lengthN) (hhi : s.lengthN ≤ row.hi) (e : exec .encode s = .next t) (ht : t.stage = stageDone) :
    FinishedAs row (streamCodewords row.ver s.lengthN) t := by
  have hlen : t.lengthN = s.lengthN := by
    rw [eq_of_erased_encode_eq (erased_encode_of_done e ht)]
    rfl
  have hbuilt : t.Built 17 := (sound_exec h e).built (by rw [ht]; rfl) (le_refl _)
  rw [← hlen] at hlo hhi ⊢
  exact hbuilt.finishedAs hrow hlo hhi

/-- Two encodes that end alike in stage 17 hold the same registers and grids. -/
theorem FinishedAs.of_alike {row : VersionRange} {m : Nat} {s t : State} (h : FinishedAs row m t)
    (halike : AfterZplace s t) : FinishedAs row m s := by
  obtain ⟨⟨⟨hver, hblen, hndc, hgdeg, _, _, ⟨hnac, _⟩⟩, ⟨hval, _⟩, hrsv, _⟩, _⟩ := halike
  obtain ⟨v, _, ⟨hver₁, hsize₁, htot₁, hec₁, hdat₁⟩, hver₂, hsize₂, htot₂, hec₂, hdat₂⟩ := hver
  exact ⟨(hver₁.trans hver₂.symm).trans h.ver, (hsize₁.trans hsize₂.symm).trans h.size,
    (htot₁.trans htot₂.symm).trans h.tot, (hec₁.trans hec₂.symm).trans h.ec, (hdat₁.trans hdat₂.symm).trans h.dat,
    hblen.trans h.blen, hndc.trans h.ndc, hnac.eq.trans h.nac, hgdeg.trans h.gdeg, hval ▸ h.val, hrsv ▸ h.rsv⟩

/-- An encode of any state of stage 0 that ends in stage 17 leaves what that of a sound state does. -/
theorem finishedAs_encode {s t : State} {row : VersionRange} {l : Nat} (hrow : row ∈ versionRanges)
    (hlo : row.lo ≤ l) (hhi : l ≤ row.hi) (hs : s.stage = 0#5) (hheld : PayloadHeld s l)
    (e : exec .encode s = .next t) (ht : t.stage = stageDone) : FinishedAs row (streamCodewords row.ver l) t := by
  have hmax : ∀ row ∈ versionRanges, row.hi ≤ inDepth := by decide
  have e' := exec_eq_commandResult .encode (loadedAs s l)
  have hlen : (loadedAs s l).lengthN = l := toNat_ofNat_of_lt hheld.1
  have hinput := sameInput_loadedAs hheld (hhi.trans (hmax row hrow))
  rcases exec_encode_alike hs rfl hinput e e' with ⟨herr, _⟩ | ⟨_, ht', halike⟩
  · exact absurd (ht.symm.trans herr) (by decide)
  · have h := finishedAs_of_sound (sound_loadedAs s l) hrow (hlen.symm ▸ hlo) (hlen.symm ▸ hhi) e' ht'
    rw [hlen] at h
    exact h.of_alike halike

/-- Settles O43: the chain runs to stage 17; the payload's bytes alone decide what it leaves there, and of an encode that
starts from the reset values the invariant says it. -/
theorem encodeCompletesForAcceptedPayload : Obligations.EncodeCompletesForAcceptedPayload := by
  unfold Obligations.EncodeCompletesForAcceptedPayload
  rintro s row l m hrow hlo hhi rfl hs hheld
  have e := exec_eq_commandResult .encode s
  have ht := stage_encode_of_payloadHeld hrow hlo hhi hs hheld e
  have h := finishedAs_encode hrow hlo hhi hs hheld e ht
  refine ⟨_, e, (eq_of_erased_encode_eq (erased_encode_of_done e ht)).trans ?_, h.val, h.rsv⟩
  rw [ht, h.ver, h.size, h.tot, h.ec, h.dat, h.blen, h.ndc, h.nac, h.gdeg]
  rfl

end Sys2Proof.Machine
end

section
/-! PROOFS. Version selection, the bit stream and the packing (R120 to R129): what the bodies of `VSEL`, `BSER` and
`PACK` compute, element by element, and the faults of `VSEL` and `BSER` alone and inside `ENCODE`. -/

namespace Sys2Proof.Machine

open Sys2Proof.Config Sys2Proof.Claims

/-! ## Version selection -/

/-- R120 finds no version exactly for the lengths above `V10_MAX_BYTES`. -/
theorem vsel_eq_none_iff (l : Nat) : vsel params l = none ↔ 253 < l := by
  rw [vsel, List.find?_eq_none]
  simp only [decide_eq_true_eq, not_le]
  constructor
  · exact fun h => h 10 (by decide)
  · intro h v hv
    obtain ⟨hmax, _⟩ := versionRow_bounds v hv
    omega

/-- The version of a row of R123 brings the other numbers of the row. -/
theorem selectVersion_of_range {row : VersionRange} (hrow : row ∈ versionRanges) (s : State) :
    s.selectVersion params row.ver =
      s.setVersion (BitVec.ofNat 4 row.ver) (BitVec.ofNat 6 row.size) (BitVec.ofNat 9 row.tot) (BitVec.ofNat 5 row.ec)
        (BitVec.ofNat 9 row.dat) := by
  obtain ⟨_, hsize, _, htot, hec, hdat, _⟩ := versionRanges_vtab row hrow
  rw [State.selectVersion, hsize, htot, hec, hdat]

/-- Settles O22: R120 selects the version of the row, and its row of `VTAB` is the row of R123. -/
theorem vselSelectsVersionRow : Obligations.VselSelectsVersionRow := by
  unfold Obligations.VselSelectsVersionRow
  intro s row l hrow hlo hhi hs hlen
  have hmax : ∀ row ∈ versionRanges, row.hi ≤ 253 := by decide
  have hl : s.lenV.toNat = l := s.operand_toNat .len hlen (by have := hmax row hrow; omega)
  refine congrArg Host.Outcome.next ((vselWith_of_range hrow (hl ▸ hlo) (hl ▸ hhi) hs).trans ?_)
  rw [selectVersion_of_range hrow]
  rfl

/-! ## Faults, alone and inside `ENCODE` -/

/-- Outside stage `ERR` the first command of a chain is performed. -/
theorem runChain_cons_of_ne_err {s : State} (f : State → State) (fs : List (State → State)) (h : s.stage ≠ stageErr) :
    runChain s (f :: fs) = runChain (f s) fs := by
  rw [runChain_cons, if_neg h]

theorem vselWith_of_overlong {s : State} (hs : s.stage = 0#5) (h : 253 < s.lenV.toNat) :
    vselWith params s = s.faulted .ovf :=
  s.pipeline_error 0#5 (vselBody params) .ovf (by decide) hs (by rw [vselBody, (vsel_eq_none_iff _).mpr h])

/-- Settles O23: no version takes the length, and the chain of `ENCODE` ends with the fault of its first command. -/
theorem overlongPayloadRaisesOvf : Obligations.OverlongPayloadRaisesOvf := by
  unfold Obligations.OverlongPayloadRaisesOvf
  intro s l hlow hl hs hlen
  have hfault : vselWith params s = s.faulted .ovf :=
    vselWith_of_overlong hs (hlow.trans_eq (s.operand_toNat .len hlen hl).symm)
  refine ⟨congrArg Host.Outcome.next hfault, ?_⟩
  rw [exec_encode_of_stage hs, pipelineStates, runChain_cons_of_ne_err _ _ (hs ▸ by decide), hfault,
    runChain_err _ _ rfl]
  rfl

/-- `VSEL` completes for every length up to 253. -/
theorem vselWith_of_le {s : State} (hs : s.stage = 0#5) (h : s.lenV.toNat ≤ 253) :
    ∃ v, vselWith params s = (s.selectVersion params v).setStage 1#5 := by
  cases hv : vsel params s.lenV.toNat with
  | none => exact absurd ((vsel_eq_none_iff _).mp hv) (not_lt.mpr h)
  | some v => exact ⟨v, s.pipeline_ok 0#5 (vselBody params) _ (by decide) hs (by rw [vselBody, hv])⟩

/-- A payload with a byte that was never written is not collected (R126). -/
theorem State.payload_of_unwritten {s : State} {n k : Nat} (hk : k < n) (h : s.inp.read k = none) :
    s.payload n = none := by
  cases hd : s.payload n with
  | none => rfl
  | some d =>
    obtain ⟨_, hheld⟩ := State.payload_eq_some hd
    have hsome := List.all_eq_true.mp hheld k (List.mem_range.mpr hk)
    exact absurd hsome (by simp [h])

theorem bserState_of_unwritten {s : State} {k : Nat} (hs : s.stage = 1#5) (hk : k < s.lenV.toNat)
    (h : s.inp.read k = none) : bserState s = s.faulted .uninit :=
  s.pipeline_error 1#5 bserBody .uninit (by decide) hs (by rw [bserBody, State.payload_of_unwritten hk h])

/-- Settles O24: the payload is not collected; inside `ENCODE`, `VSEL` completes and leaves the payload as it is. -/
theorem unwrittenPayloadRaisesUninit : Obligations.UnwrittenPayloadRaisesUninit := by
  unfold Obligations.UnwrittenPayloadRaisesUninit
  intro s l k hk hl hlen hnone
  have hlenV : s.lenV.toNat = l := s.operand_toNat .len hlen (by omega)
  rw [← hlenV] at hk hl
  refine ⟨fun hs => congrArg Host.Outcome.next (bserState_of_unwritten hs hk hnone), fun hs => ?_⟩
  obtain ⟨v, hvsel⟩ := vselWith_of_le hs hl
  have hfault : bserState (vselWith params s) = s.faulted .uninit := by
    rw [hvsel]
    exact bserState_of_unwritten rfl hk hnone
  have hstage : (vselWith params s).stage ≠ stageErr := by
    rw [hvsel, State.setStage_stage]
    decide
  rw [exec_encode_of_stage hs, pipelineStates, runChain_cons_of_ne_err _ _ (hs ▸ by decide),
    runChain_cons_of_ne_err _ _ hstage, hfault, runChain_err _ _ rfl]
  rfl

/-! ## Writes from element 0 on -/

section
variable {w depth k : Nat} (m : Memory w) (vs : List (BitVec w))

theorem Memory.read_writeRange_zero_of_lt (h : vs.length ≤ depth) (hk : k < vs.length) :
    (m.writeRange depth 0 vs).read k = vs[k]? := by
  rw [Memory.read_writeRange _ _ _ _ _ (by rwa [Nat.zero_add]), Nat.zero_add, if_pos ⟨k.zero_le, hk⟩, Nat.sub_zero]

theorem Memory.read_writeRange_zero_of_ge (h : vs.length ≤ depth) (hk : vs.length ≤ k) :
    (m.writeRange depth 0 vs).read k = m.read k := by
  rw [Memory.read_writeRange _ _ _ _ _ (by rwa [Nat.zero_add]), Nat.zero_add, if_neg fun h => not_lt.mpr hk h.2]

end

/-! ## Bits -/

theorem ofBool_getLsbD_zero (b : Bit) : BitVec.ofBool (b.getLsbD 0) = b :=
  BitVec.setWidth_one.symm.trans (BitVec.setWidth_eq b)

theorem extractLsb'_one_eq_ofBool {w : Nat} (x : BitVec w) (i : Nat) :
    x.extractLsb' i 1 = BitVec.ofBool (x.getLsbD i) := by
  ext j hj
  obtain rfl : j = 0 := by omega
  simp

theorem getElem?_bitsMsbFirst {w n i : Nat} (x : BitVec w) (h : i < n) :
    (bitsMsbFirst n x)[i]? = some (x.extractLsb' (n - 1 - i) 1) := by
  simp [bitsMsbFirst, h]

theorem length_flatMap_bitsMsbFirst (d : List Byte) : (d.flatMap (bitsMsbFirst 8)).length = 8 * d.length := by
  simp [List.length_flatMap, Nat.mul_comm]

/-- Bit `j` of a list of bytes, most significant bit of each first (R67). -/
theorem getElem?_flatMap_bitsMsbFirst (d : List Byte) (j : Nat) :
    (d.flatMap (bitsMsbFirst 8))[j]? = d[j / 8]?.map (fun b => b.extractLsb' (7 - j % 8) 1) := by
  induction d generalizing j with
  | nil => simp
  | cons b d ih =>
    rw [List.flatMap_cons, List.getElem?_append, length_bitsMsbFirst]
    by_cases hj : j < 8
    · rw [if_pos hj, getElem?_bitsMsbFirst b hj, Nat.div_eq_of_lt hj, Nat.mod_eq_of_lt hj]
      rfl
    · have hdiv : j / 8 = (j - 8) / 8 + 1 := by omega
      have hmod : j % 8 = (j - 8) % 8 := by omega
      rw [if_neg hj, ih, hdiv, hmod, List.getElem?_cons_succ]

/-- Appending a bit makes it the least significant one (R67 (d)). -/
theorem numberOfBits_concat (bits : List Bit) (b : Bit) :
    numberOfBits (bits ++ [b]) = Nat.bit (b.getLsbD 0) (numberOfBits bits) := by
  have hb : b.toNat = (b.getLsbD 0).toNat := by rw [← BitVec.toNat_ofBool, ofBool_getLsbD_zero]
  rw [Nat.bit_val, ← hb]
  simp [numberOfBits]

/-- Bit `j` of the number is the `j`-th of its bits from the end. -/
theorem testBit_numberOfBits (bits : List Bit) (j : Nat) :
    (numberOfBits bits).testBit j = (bits.reverse.getD j 0#1).getLsbD 0 := by
  induction bits using List.reverseRecOn generalizing j with
  | nil => simp [numberOfBits]
  | append_singleton bits b ih =>
    rw [numberOfBits_concat]
    cases j with
    | zero => simp
    | succ j => simp [Nat.testBit_bit_succ, ih]

/-! ## The bit stream -/

theorem getElem?_of_mapM_eq_some {α β : Type} {f : α → Option β} {xs : List α} {ys : List β}
    (h : xs.mapM f = some ys) (k : Nat) : ys[k]? = xs[k]?.bind f := by
  induction xs generalizing ys k with
  | nil =>
    obtain rfl : [] = ys := by simpa using h
    rfl
  | cons x xs ih =>
    simp only [List.mapM_cons, Option.bind_eq_bind, Option.bind_eq_some_iff, Option.pure_def, Option.some.injEq] at h
    obtain ⟨y, hy, zs, hzs, rfl⟩ := h
    cases k with
    | zero => exact hy.symm
    | succ k => exact ih hzs k

theorem State.payload_getElem? {s : State} {n k : Nat} {d : List Byte} (h : s.payload n = some d) (hk : k < n) :
    d[k]? = s.inp.read k := by
  rw [getElem?_of_mapM_eq_some h, List.getElem?_range hk, Option.bind_some]

theorem countWidth_le (v : Nat) : countWidth v ≤ 16 := by
  unfold countWidth
  split <;> omega

/-- The stream's parts and their lengths; terminator and padding are zeros alike (R125). -/
theorem bitStream_parts (v : Nat) (l : BitVec 16) (d : List Byte) :
    ∃ z, 4 + (countWidth v + (8 * d.length + z)) = 8 * streamCodewords v d.length ∧
      bitStream v l d = [0#1, 1#1, 0#1, 0#1] ++
        (bitsMsbFirst (countWidth v) l ++ (d.flatMap (bitsMsbFirst 8) ++ List.replicate z 0#1)) := by
  have hparts : bitStream v l d = [0#1, 1#1, 0#1, 0#1] ++ (bitsMsbFirst (countWidth v) l ++
      (d.flatMap (bitsMsbFirst 8) ++ List.replicate (4 + (8 - (streamBits v l d).length % 8) % 8) 0#1)) := by
    rw [bitStream, padToByte, List.replicate_add]
    simp [streamBits, List.replicate_succ]
  refine ⟨_, ?_, hparts⟩
  rw [← length_bitStream v l d, hparts]
  simp only [List.length_append, List.length_cons, List.length_nil, length_bitsMsbFirst, length_flatMap_bitsMsbFirst,
    List.length_replicate]

/-- Bit `k` of the stream of a payload in `IN` (R125). -/
theorem getElem?_bitStream {s : State} {v l k : Nat} {d : List Byte} (hd : s.payload l = some d)
    (hk : k < 8 * streamCodewords v l) : (bitStream v (BitVec.ofNat 16 l) d)[k]? = streamBit s v l k := by
  obtain ⟨rfl, _⟩ := State.payload_eq_some hd
  obtain ⟨z, htotal, hparts⟩ := bitStream_parts v (BitVec.ofNat 16 d.length) d
  have hmode : ∀ k < 4, [0#1, 1#1, 0#1, 0#1][k]? = some (if k = 1 then 1#1 else 0#1) := by decide
  have hwidth := countWidth_le v
  simp only [streamBit, show (if v ≤ 9 then 8 else 16) = countWidth v from rfl]
  rw [hparts]
  by_cases h4 : k < 4
  · rw [if_pos h4, List.getElem?_append_left h4, hmode k h4]
  · rw [if_neg h4, List.getElem?_append_right (not_lt.mp h4)]
    change (bitsMsbFirst (countWidth v) _ ++ _)[k - 4]? = _
    by_cases hcount : k < 4 + countWidth v
    · have hi : k - 4 < countWidth v := by omega
      rw [if_pos hcount, List.getElem?_append_left (by rwa [length_bitsMsbFirst]), getElem?_bitsMsbFirst _ hi,
        extractLsb'_one_eq_ofBool, BitVec.getLsbD_ofNat, decide_eq_true (by omega), Bool.true_and]
    · rw [if_neg hcount, List.getElem?_append_right (by rw [length_bitsMsbFirst]; omega), length_bitsMsbFirst]
      have hpayload := length_flatMap_bitsMsbFirst d
      by_cases hdata : k < 4 + countWidth v + 8 * d.length
      · rw [if_pos hdata, List.getElem?_append_left (by omega), getElem?_flatMap_bitsMsbFirst,
          State.payload_getElem? hd (by omega)]
      · rw [if_neg hdata, List.getElem?_append_right (by omega), hpayload, List.getElem?_replicate, if_pos (by omega)]

/-- Settles O25: the written payload is collected, and `BS` takes its stream bit by bit from element 0 on. -/
theorem bserWritesBitStream : Obligations.BserWritesBitStream := by
  unfold Obligations.BserWritesBitStream
  rintro s v l hs hv hver hl ⟨hlt, hlen, hinp⟩
  obtain ⟨d, hd⟩ := State.payload_of_holdsBelow hinp
  obtain ⟨hdlen, _⟩ := State.payload_eq_some hd
  have hverN : s.verN = v := s.operand_toNat .ver hver (by omega)
  have hlenV : s.lenV = BitVec.ofNat 16 l := by
    rw [State.lenV, hlen]
    rfl
  have hbits : (bitStream v (BitVec.ofNat 16 l) d).length = 8 * streamCodewords v l := by
    rw [length_bitStream, hdlen]
  have hdepth : (bitStream v (BitVec.ofNat 16 l) d).length ≤ bsDepth := by
    have hbound : streamCodewords v l ≤ l + 3 := by
      unfold streamCodewords
      split <;> omega
    rw [hbits]
    exact (Nat.mul_le_mul_left 8 (hbound.trans (Nat.add_le_add_right hl 3))).trans (by decide)
  have hbody : bserBody s = .ok (s.setStream (s.bs.writeRange bsDepth 0 (bitStream v (BitVec.ofNat 16 l) d))
      (BitVec.ofNat 12 (8 * streamCodewords v l))) := by
    rw [bserBody, hlenV, toNat_ofNat_of_lt hlt, hd, hverN, ← hbits]
  refine ⟨_, congrArg Host.Outcome.next (s.pipeline_ok 1#5 bserBody _ (by decide) hs hbody), rfl,
    fun k (hk : k < 8 * streamCodewords v l) => ?_, fun k (hk : 8 * streamCodewords v l ≤ k) => ?_⟩
  · exact (Memory.read_writeRange_zero_of_lt _ _ hdepth (hbits ▸ hk)).trans (getElem?_bitStream hd hk)
  · exact Memory.read_writeRange_zero_of_ge _ _ hdepth (hbits ▸ hk)

/-! ## Packing -/

/-- R128: in a codeword of the stream, the earlier bit is the more significant. -/
theorem extractLsb'_streamCodeword (s : State) (k : Nat) {i : Nat} (hi : i < 8) :
    (s.streamCodeword k).extractLsb' (7 - i) 1 = s.bsAt (8 * k + i) := by
  have hbit : ((List.range 8).map fun i => s.bsAt (8 * k + i)).reverse.getD (7 - i) 0#1 = s.bsAt (8 * k + i) := by
    have hi' : 8 - 1 - (7 - i) = i := by omega
    rw [List.getD_eq_getElem?_getD, List.getElem?_reverse (by simp; omega), List.length_map, List.length_range, hi',
      List.getElem?_map, List.getElem?_range hi, Option.map_some, Option.getD_some]
  rw [extractLsb'_one_eq_ofBool, State.streamCodeword, BitVec.getLsbD_ofNat, decide_eq_true (by omega), Bool.true_and,
    testBit_numberOfBits, hbit, ofBool_getLsbD_zero]

theorem getElem?_dataCodewords_stream {s : State} {k : Nat} (h : k < s.blenN / 8) :
    s.dataCodewords[k]? = some (s.streamCodeword k) := by
  rw [State.dataCodewords, List.getElem?_append_left (by simpa using h), List.getElem?_map, List.getElem?_range h,
    Option.map_some]

theorem getElem?_dataCodewords_pad {s : State} {k : Nat} (hlow : s.blenN / 8 ≤ k) (hk : k < s.datN) :
    s.dataCodewords[k]? = some (padCodeword (k - s.blenN / 8)) := by
  rw [State.dataCodewords, List.getElem?_append_right (by simpa using hlow), List.length_map, List.length_range,
    List.getElem?_map, List.getElem?_range (by omega), Option.map_some]

/-- An element of `BS` that holds a value is read without a draw. -/
theorem State.read_bs_of_holdsBelow {s : State} {n k : Nat} (h : s.bs.holdsBelow n = true) (hk : k < n) :
    s.bs.read k = some (s.bsAt k) := by
  obtain ⟨b, hb⟩ := Option.isSome_iff_exists.mp (List.all_eq_true.mp h k (List.mem_range.mpr hk))
  rw [State.bsAt, hb]
  rfl

/-- Settles O26: `CW` takes the list of data codewords from element 0 on, the sliced ones first. -/
theorem packSlicesAndPads : Obligations.PackSlicesAndPads := by
  unfold Obligations.PackSlicesAndPads
  rintro s b m d hs hb hblen rfl hd hdat hheld
  obtain rfl : s.blenN = b := s.operand_toNat .blen hblen hb
  obtain rfl : s.datN = d := s.operand_toNat .dat hdat hd
  have hlen := length_dataCodewords s
  have hdepth : s.dataCodewords.length ≤ cwDepth := by
    rw [hlen, cwDepth]
    omega
  refine ⟨_, congrArg Host.Outcome.next (s.pipeline_ok 2#5 packBody _ (by decide) hs rfl), ?_, fun k hk => ?_,
    fun k hlow hk => ?_, fun k hk => ?_⟩
  · rw [← hlen]
    rfl
  · refine ⟨s.streamCodeword k, ?_, fun i hi => ?_⟩
    · exact (Memory.read_writeRange_zero_of_lt _ _ hdepth (by omega)).trans (getElem?_dataCodewords_stream hk)
    · rw [extractLsb'_streamCodeword s k hi, State.read_bs_of_holdsBelow hheld (by omega)]
  · exact (Memory.read_writeRange_zero_of_lt _ _ hdepth (by omega)).trans (getElem?_dataCodewords_pad hlow hk)
  · exact Memory.read_writeRange_zero_of_ge _ _ hdepth (hlen ▸ hk)

end Sys2Proof.Machine
end

section
/-! PROOFS. The tables and the product of the field (R140 to R145): the nonzero elements are the powers of `alpha` that
`EXP` lists, the product adds exponents, and it is the product of polynomials modulo `x^8+x^4+x^3+x^2+1`. -/

namespace Sys2Proof.Machine

open Sys2Proof.Claims

/-! ## The tables -/

/-- The top bit decides whether a multiplication by `x` is reduced. -/
theorem timesX_eq_ite (a : Byte) : timesX a = if a.toNat < 128 then a <<< 1 else (a <<< 1) ^^^ 0x1D#8 := by
  have hbit : a.getLsbD 7 = decide (128 ≤ a.toNat) := by
    rw [← BitVec.msb_eq_getLsbD_last, BitVec.msb_eq_decide]
  rw [timesX, hbit]
  split
  · next h => rw [if_neg (not_lt.mpr (of_decide_eq_true h))]
  · next h => rw [if_pos (by simpa using h), BitVec.xor_zero]

/-- One turn of R141's construction, on numbers, is a multiplication by `x`. -/
theorem ofNat_double_eq_timesX (x : Byte) :
    BitVec.ofNat 8 (if 256 ≤ 2 * x.toNat then (2 * x.toNat) ^^^ 0x11D else 2 * x.toNat) = timesX x := by
  have hshift : BitVec.ofNat 8 (2 * x.toNat) = x <<< 1 := by
    rw [BitVec.shiftLeft_eq_mul_twoPow, BitVec.ofNat_mul, BitVec.ofNat_toNat, BitVec.setWidth_eq, BitVec.mul_comm]
    rfl
  rw [timesX_eq_ite]
  by_cases h : x.toNat < 128
  · rw [if_pos h, if_neg (by omega), hshift]
  · rw [if_neg h, if_pos (by omega), BitVec.ofNat_xor, hshift]
    rfl

/-- R142 repeats with period 255. -/
theorem expValue_congr {i j : Nat} (h : i % 255 = j % 255) : expValue i = expValue j := by
  rw [expValue, h, expValue]

theorem expValue_mod (i : Nat) : expValue (i % 255) = expValue i := expValue_congr (Nat.mod_mod i 255)

theorem expValue_zero : expValue 0 = 1#8 := rfl

/-- R142 follows the construction of R141, into the next period too. -/
theorem expValue_succ (i : Nat) : expValue (i + 1) = timesX (expValue i) := by
  have hperiod : ∀ j < 255, expValue (j + 1) = timesX (expValue j) := by decide +kernel
  rw [← expValue_mod i, ← hperiod _ (Nat.mod_lt i (by decide))]
  exact expValue_congr (by omega)

/-- R143 inverts the first period of R142. -/
theorem logValue_expValue (i : Nat) : logValue (expValue i).toNat = i % 255 := by
  have hperiod : ∀ j < 255, logValue (expValue j).toNat = j := by decide +kernel
  rw [← expValue_mod, hperiod _ (Nat.mod_lt i (by decide))]

/-- No two powers of `alpha` below 255 are equal. -/
theorem expValue_inj {i j : Nat} (hi : i < 255) (hj : j < 255) (h : expValue i = expValue j) : i = j := by
  have hlog := logValue_expValue i
  rwa [h, logValue_expValue, Nat.mod_eq_of_lt hi, Nat.mod_eq_of_lt hj, eq_comm] at hlog

theorem expValue_ne_zero (i : Nat) : expValue i ≠ 0#8 := by
  have hperiod : ∀ j < 255, expValue j ≠ 0#8 := by decide +kernel
  exact expValue_mod i ▸ hperiod _ (Nat.mod_lt i (by decide))

/-- Every nonzero element is a power of `alpha`. -/
theorem expValue_logValue {a : Byte} (h : a ≠ 0#8) : expValue (logValue a.toNat) = a := by
  have hall : ∀ a : Byte, a ≠ 0#8 → expValue (logValue a.toNat) = a := by decide +kernel
  exact hall a h

theorem logValue_lt {a : Byte} (h : a ≠ 0#8) : logValue a.toNat < 255 := by
  rw [← expValue_logValue h, logValue_expValue]
  exact Nat.mod_lt _ (by decide)

theorem romExp_of_le {i : Nat} (h : i ≤ 510) : romExp i = some (expValue i) := if_pos h

theorem romLog_toNat {a : Byte} (h : a ≠ 0#8) : romLog a.toNat = some (BitVec.ofNat 8 (logValue a.toNat)) := by
  have hpos : a.toNat ≠ 0 := fun h0 => h (BitVec.eq_of_toNat_eq h0)
  exact if_pos ⟨Nat.one_le_iff_ne_zero.mpr hpos, Nat.le_of_lt_succ a.isLt⟩

/-- Settles O17: `EXP` starts at 1, goes on by doubling and repeats with period 255; `LOG` inverts its first period, in
which every nonzero element stands. -/
theorem tablesFollowConstruction : Obligations.TablesFollowConstruction := by
  unfold Obligations.TablesFollowConstruction
  refine ⟨rfl, fun i hi => ?_, fun i hlow hi => ?_, fun i hi => if_neg (not_le.mpr hi), fun i hi => ?_,
    fun a hlow ha => ?_, rfl⟩
  · refine ⟨expValue i, romExp_of_le (by omega), ?_⟩
    rw [romExp_of_le (by omega), expValue_succ, ofNat_double_eq_timesX]
  · rw [romExp_of_le hi, romExp_of_le (by omega), expValue_congr (show i % 255 = (i - 255) % 255 by omega)]
  · refine ⟨expValue i, romExp_of_le (by omega), ?_⟩
    rw [romLog_toNat (expValue_ne_zero i), logValue_expValue, Nat.mod_eq_of_lt (by omega)]
  · have hval : (BitVec.ofNat 8 a).toNat = a := toNat_ofNat_of_lt (by omega)
    have hne : BitVec.ofNat 8 a ≠ 0#8 := fun h => by
      rw [h] at hval
      exact absurd hlow (hval ▸ by decide)
    have hlog := romLog_toNat hne
    have hexp := expValue_logValue hne
    have hlt := logValue_lt hne
    rw [hval] at hlog hexp hlt
    exact ⟨logValue a, by omega, hlog, by rw [romExp_of_le (by omega), hexp]⟩

/-! ## The product adds exponents -/

@[simp] theorem gfmul_zero (a : Byte) : gfmul a 0#8 = 0#8 := if_pos (.inr rfl)

@[simp] theorem zero_gfmul (a : Byte) : gfmul 0#8 a = 0#8 := if_pos (.inl rfl)

theorem gfmul_expValue (i j : Nat) : gfmul (expValue i) (expValue j) = expValue (i + j) := by
  have hne : ¬ (expValue i = 0#8 ∨ expValue j = 0#8) := not_or.mpr ⟨expValue_ne_zero i, expValue_ne_zero j⟩
  rw [gfmul, if_neg hne, logValue_expValue, logValue_expValue]
  exact expValue_congr (Nat.add_mod i j 255).symm

/-- An element is zero or a power of `alpha`. -/
theorem eq_zero_or_expValue (a : Byte) : a = 0#8 ∨ ∃ i, a = expValue i := by
  by_cases h : a = 0#8
  · exact .inl h
  · exact .inr ⟨_, (expValue_logValue h).symm⟩

theorem gfmul_comm (a b : Byte) : gfmul a b = gfmul b a := by
  obtain rfl | ⟨i, rfl⟩ := eq_zero_or_expValue a
  · simp
  obtain rfl | ⟨j, rfl⟩ := eq_zero_or_expValue b
  · simp
  rw [gfmul_expValue, gfmul_expValue, Nat.add_comm]

theorem gfmul_assoc (a b c : Byte) : gfmul (gfmul a b) c = gfmul a (gfmul b c) := by
  obtain rfl | ⟨i, rfl⟩ := eq_zero_or_expValue a
  · simp
  obtain rfl | ⟨j, rfl⟩ := eq_zero_or_expValue b
  · simp
  obtain rfl | ⟨k, rfl⟩ := eq_zero_or_expValue c
  · simp
  rw [gfmul_expValue, gfmul_expValue, gfmul_expValue, gfmul_expValue, Nat.add_assoc]

@[simp] theorem gfmul_one (a : Byte) : gfmul a 1#8 = a := by
  obtain rfl | ⟨i, rfl⟩ := eq_zero_or_expValue a
  · rfl
  · exact gfmul_expValue i 0

@[simp] theorem one_gfmul (a : Byte) : gfmul 1#8 a = a := (gfmul_comm 1#8 a).trans (gfmul_one a)

/-- No zero divisors. -/
theorem gfmul_eq_zero {a b : Byte} (h : gfmul a b = 0#8) : a = 0#8 ∨ b = 0#8 := by
  obtain ha | ⟨i, rfl⟩ := eq_zero_or_expValue a
  · exact .inl ha
  obtain hb | ⟨j, rfl⟩ := eq_zero_or_expValue b
  · exact .inr hb
  exact absurd (gfmul_expValue i j ▸ h) (expValue_ne_zero _)

theorem gfmul_inverse {a : Byte} (h : a ≠ 0#8) : gfmul a (expValue (255 - logValue a.toNat)) = 1#8 := by
  have hlt := logValue_lt h
  calc gfmul a (expValue (255 - logValue a.toNat))
      = gfmul (expValue (logValue a.toNat)) (expValue (255 - logValue a.toNat)) := by rw [expValue_logValue h]
    _ = expValue 255 := by rw [gfmul_expValue, Nat.add_sub_cancel' hlt.le]

/-- `2` is `alpha`, and multiplication by it is R140's multiplication by `x`. -/
theorem gfmul_two (a : Byte) : gfmul 2#8 a = timesX a := by
  obtain rfl | ⟨i, rfl⟩ := eq_zero_or_expValue a
  · rfl
  · rw [← expValue_succ, Nat.add_comm]
    exact gfmul_expValue 1 i

theorem gfmul_timesX (a b : Byte) : gfmul a (timesX b) = timesX (gfmul a b) := by
  rw [← gfmul_two, ← gfmul_two, gfmul_comm 2#8 b, ← gfmul_assoc, gfmul_comm]

/-! ## The product of polynomials -/

theorem timesX_xor (a b : Byte) : timesX (a ^^^ b) = timesX a ^^^ timesX b := by
  have hreduce : (if (a ^^^ b).getLsbD 7 then 0x1D#8 else 0#8) =
      (if a.getLsbD 7 then 0x1D#8 else 0#8) ^^^ (if b.getLsbD 7 then 0x1D#8 else 0#8) := by
    rw [BitVec.getLsbD_xor]
    cases a.getLsbD 7 <;> cases b.getLsbD 7 <;> rfl
  rw [timesX, timesX, timesX, hreduce, BitVec.shiftLeft_xor_distrib]
  ac_rfl

/-- One turn of the product: bit `i` of `a` adds the shifted second factor, which is then shifted once more (R140). -/
def productTurn (a : Byte) (acc : Byte × Byte) (i : Nat) : Byte × Byte :=
  (if a.getLsbD i then acc.1 ^^^ acc.2 else acc.1, timesX acc.2)

theorem productMod_eq (a b : Byte) : productMod a b = ((List.range 8).foldl (productTurn a) (0#8, b)).1 := rfl

theorem productMod_timesX (a b : Byte) : productMod a (timesX b) = timesX (productMod a b) := by
  have hturn : ∀ acc i,
      productTurn a (Prod.map timesX timesX acc) i = Prod.map timesX timesX (productTurn a acc i) := by
    intro acc i
    cases h : a.getLsbD i <;> simp [productTurn, h, timesX_xor]
  rw [productMod_eq, productMod_eq]
  exact congrArg Prod.fst (List.foldl_hom (Prod.map timesX timesX) (init := (0#8, b)) hturn)

theorem foldl_productTurn_xor (a x y b c : Byte) (is : List Nat) :
    (is.foldl (productTurn a) (x ^^^ y, b ^^^ c)).1 =
      (is.foldl (productTurn a) (x, b)).1 ^^^ (is.foldl (productTurn a) (y, c)).1 := by
  induction is generalizing x y b c with
  | nil => rfl
  | cons i is ih =>
    have hturn : productTurn a (x ^^^ y, b ^^^ c) i =
        ((productTurn a (x, b) i).1 ^^^ (productTurn a (y, c) i).1, timesX b ^^^ timesX c) := by
      cases h : a.getLsbD i
      · simp [productTurn, h, timesX_xor]
      · simp only [productTurn, h, timesX_xor, if_true]
        ac_rfl
    rw [List.foldl_cons, hturn, ih]
    rfl

theorem productMod_xor (a b c : Byte) : productMod a (b ^^^ c) = productMod a b ^^^ productMod a c := by
  rw [productMod_eq, productMod_eq, productMod_eq]
  exact foldl_productTurn_xor a 0#8 0#8 b c (List.range 8)

/-- The product with the polynomial 1 collects the bits of the other factor. -/
theorem productMod_one : ∀ a : Byte, productMod a 1#8 = a := by decide +kernel

theorem gfmul_eq_productMod (a b : Byte) : gfmul a b = productMod a b := by
  obtain rfl | ⟨i, rfl⟩ := eq_zero_or_expValue b
  · have hzero := productMod_xor a 0#8 0#8
    rw [BitVec.xor_self] at hzero
    rw [gfmul_zero, hzero, BitVec.xor_self]
  · induction i with
    | zero => rw [expValue_zero, gfmul_one, productMod_one]
    | succ i ih => rw [expValue_succ, gfmul_timesX, productMod_timesX, ih]

/-- Settles O15: both products are linear in multiplication by `x`, and they agree at the second factor 1. -/
theorem gfmulIsPolynomialProduct : Obligations.GfmulIsPolynomialProduct := gfmul_eq_productMod

theorem gfmul_xor (a b c : Byte) : gfmul a (b ^^^ c) = gfmul a b ^^^ gfmul a c := by
  rw [gfmul_eq_productMod, gfmul_eq_productMod, gfmul_eq_productMod, productMod_xor]

theorem xor_gfmul (a b c : Byte) : gfmul (a ^^^ b) c = gfmul a c ^^^ gfmul b c := by
  rw [gfmul_comm, gfmul_xor, gfmul_comm c a, gfmul_comm c b]

/-- A nonzero factor cancels. -/
theorem gfmul_cancel {a x y : Byte} (h : gfmul a x = gfmul a y) : a = 0#8 ∨ x = y := by
  have hzero : gfmul a (x ^^^ y) = 0#8 := by rw [gfmul_xor, h, BitVec.xor_self]
  exact (gfmul_eq_zero hzero).imp_right fun hxy => BitVec.xor_eq_zero_iff.mp hxy

/-- Settles O16: the product adds exponents, and it distributes because the product of polynomials does. -/
theorem fieldLaws : Obligations.FieldLaws := by
  unfold Obligations.FieldLaws
  exact ⟨gfmul_comm, fun a => ⟨gfmul_one a, gfmul_zero a⟩, gfmul_assoc, gfmul_xor, fun _ => gfmul_inverse,
    fun _ _ => gfmul_eq_zero, fun a => (gfmul_two a).trans (timesX_eq_ite a)⟩

end Sys2Proof.Machine
end

section
/-! PROOFS. Polynomials over the field (R148 to R151): the coefficients of a product, the product with a linear factor,
and of the generators the leading coefficient, the roots and why no coefficient is zero. -/

namespace Sys2Proof.Machine

open Sys2Proof.Claims

/-! ## Coefficients of a product -/

/-- Where the second list is at least as long, every coefficient of the first is added. -/
theorem getD_addLeading {p q : Poly} (h : p.length ≤ q.length) (k : Nat) :
    (addLeading p q).getD k 0#8 = p.getD k 0#8 ^^^ q.getD k 0#8 := by
  induction p generalizing q k with
  | nil => simp [addLeading]
  | cons a p ih =>
    cases q with
    | nil => simp at h
    | cons b q =>
      cases k with
      | zero => rfl
      | succ k => simpa [addLeading] using ih (Nat.le_of_succ_le_succ h) k

theorem getD_map_gfmul (c : Byte) (q : Poly) (k : Nat) : (q.map (gfmul c)).getD k 0#8 = gfmul c (q.getD k 0#8) := by
  simpa only [gfmul_zero] using q.getD_map 0#8 (n := k) (gfmul c)

/-- R149: the first row and the rest of the product, one place further on. -/
theorem getD_pmul_cons (c : Byte) (p : Poly) {q : Poly} (hq : q ≠ []) (k : Nat) :
    (pmul (c :: p) q).getD k 0#8 = gfmul c (q.getD k 0#8) ^^^ (0#8 :: pmul p q).getD k 0#8 := by
  have hpos := List.length_pos_iff.mpr hq
  rw [pmul, getD_addLeading (by simp; omega), getD_map_gfmul]

theorem getD_pmul_nil (q : Poly) (k : Nat) : (pmul [] q).getD k 0#8 = 0#8 := by
  rw [pmul, List.getD_eq_getElem?_getD, List.getElem?_getD_replicate_default_eq]

theorem foldl_xor_init (f : Nat → Byte) (is : List Nat) (a : Byte) :
    is.foldl (fun acc i => acc ^^^ f i) a = a ^^^ is.foldl (fun acc i => acc ^^^ f i) 0#8 := by
  induction is generalizing a with
  | nil => simp
  | cons i is ih => rw [List.foldl_cons, List.foldl_cons, ih, ih (0#8 ^^^ f i), BitVec.zero_xor, BitVec.xor_assoc]

theorem productCoefficient_nil (q : Poly) (k : Nat) : productCoefficient [] q k = 0#8 := by
  simp [productCoefficient]

/-- The term of the first list's leading coefficient, and the terms of the others, one place further on. -/
theorem productCoefficient_cons (c : Byte) (p q : Poly) (k : Nat) :
    productCoefficient (c :: p) q k =
      gfmul c (q.getD k 0#8) ^^^
        (List.range k).foldl (fun acc i => acc ^^^ gfmul (p.getD i 0#8) (q.getD (k - (i + 1)) 0#8)) 0#8 := by
  rw [productCoefficient, List.range_succ_eq_map, List.foldl_cons, List.foldl_map, foldl_xor_init, BitVec.zero_xor]
  rfl

theorem getD_pmul (p : Poly) {q : Poly} (hq : q ≠ []) (k : Nat) :
    (pmul p q).getD k 0#8 = productCoefficient p q k := by
  induction p generalizing k with
  | nil => rw [getD_pmul_nil, productCoefficient_nil]
  | cons c p ih =>
    rw [getD_pmul_cons c p hq, productCoefficient_cons]
    cases k with
    | zero => rfl
    | succ k =>
      rw [List.getD_cons_succ, ih, productCoefficient]
      simp only [Nat.add_sub_add_right]

theorem getElem?_eq_some_getD {p : Poly} {k : Nat} (h : k < p.length) : p[k]? = some (p.getD k 0#8) := by
  rw [List.getElem?_eq_getElem h, List.getD_eq_getElem _ _ h]

/-- Settles O18: row by row, every coefficient is the sum of the terms whose indexes sum to its own. -/
theorem pmulIsConvolution : Obligations.PmulIsConvolution := by
  unfold Obligations.PmulIsConvolution
  intro p q _ hq
  have hpos := List.length_pos_iff.mpr hq
  have hlen : (pmul p q).length = p.length + q.length - 1 := by
    rw [length_pmul]
    omega
  exact ⟨hlen, fun k hk => by rw [getElem?_eq_some_getD (hlen ▸ hk), getD_pmul p hq]⟩

/-! ## The product with a linear factor -/

/-- R153: each coefficient, and the one before it times the power of `alpha`. -/
theorem getD_pmul_linearFactor (p : Poly) (i k : Nat) :
    (pmul p (linearFactor i)).getD k 0#8 = p.getD k 0#8 ^^^ gfmul ((0#8 :: p).getD k 0#8) (expValue i) := by
  induction p generalizing k with
  | nil =>
    rw [getD_pmul_nil]
    cases k <;> simp
  | cons c p ih =>
    rw [getD_pmul_cons c p (q := linearFactor i) (List.cons_ne_nil _ _)]
    cases k with
    | zero => simp [linearFactor]
    | succ k =>
      rw [List.getD_cons_succ, List.getD_cons_succ, List.getD_cons_succ, ih]
      cases k with
      | zero => simp [linearFactor, BitVec.xor_comm]
      | succ k => simp [linearFactor]

theorem pmul_linearFactor (p : Poly) (i : Nat) :
    pmul p (linearFactor i) =
      List.zipWith (· ^^^ ·) (p ++ [0#8]) (0#8 :: p.map fun c => gfmul c (expValue i)) := by
  induction p with
  | nil => rfl
  | cons c p ih =>
    have hrow : pmul (c :: p) (linearFactor i) = c :: addLeading [gfmul c (expValue i)] (pmul p (linearFactor i)) := by
      simp [pmul, linearFactor, addLeading, gfadd]
    rw [hrow, ih]
    cases p with
    | nil => simp [addLeading, gfadd]
    | cons d p => simp [addLeading, gfadd, BitVec.xor_comm]

/-! ## Values -/

theorem evalAt_concat (p : Poly) (c x : Byte) : evalAt (p ++ [c]) x = gfmul (evalAt p x) x ^^^ c :=
  List.foldl_append ..

theorem evalAt_zero_cons (p : Poly) (x : Byte) : evalAt (0#8 :: p) x = evalAt p x := by
  rw [evalAt, List.foldl_cons, zero_gfmul, BitVec.xor_zero, evalAt]

theorem foldl_zipWith_xor (x a b : Byte) {p q : Poly} (h : p.length = q.length) :
    (List.zipWith (· ^^^ ·) p q).foldl (fun acc c => gfmul acc x ^^^ c) (a ^^^ b) =
      p.foldl (fun acc c => gfmul acc x ^^^ c) a ^^^ q.foldl (fun acc c => gfmul acc x ^^^ c) b := by
  induction p generalizing q a b with
  | nil =>
    obtain rfl := List.length_eq_zero_iff.mp h.symm
    rfl
  | cons c p ih =>
    cases q with
    | nil => simp at h
    | cons d q =>
      have hstep : gfmul (a ^^^ b) x ^^^ (c ^^^ d) = (gfmul a x ^^^ c) ^^^ (gfmul b x ^^^ d) := by
        rw [xor_gfmul]
        ac_rfl
      rw [List.zipWith_cons_cons, List.foldl_cons, hstep, ih _ _ (Nat.succ.inj h), List.foldl_cons, List.foldl_cons]

/-- The value of a sum is the sum of the values. -/
theorem evalAt_zipWith_xor {p q : Poly} (h : p.length = q.length) (x : Byte) :
    evalAt (List.zipWith (· ^^^ ·) p q) x = evalAt p x ^^^ evalAt q x :=
  foldl_zipWith_xor x 0#8 0#8 h

theorem evalAt_map_gfmul (p : Poly) (x y : Byte) : evalAt (p.map fun c => gfmul c y) x = gfmul (evalAt p x) y := by
  have hstep : ∀ acc c, gfmul (gfmul acc y) x ^^^ gfmul c y = gfmul (gfmul acc x ^^^ c) y := by
    intro acc c
    rw [xor_gfmul, gfmul_assoc, gfmul_comm y x, ← gfmul_assoc]
  calc evalAt (p.map fun c => gfmul c y) x
      = p.foldl (fun acc c => gfmul acc x ^^^ gfmul c y) (gfmul 0#8 y) := by rw [evalAt, List.foldl_map, zero_gfmul]
    _ = gfmul (evalAt p x) y := List.foldl_hom (gfmul · y) hstep

/-- The value of the product is that of the polynomial times that of the factor. -/
theorem evalAt_pmul_linearFactor (p : Poly) (i : Nat) (x : Byte) :
    evalAt (pmul p (linearFactor i)) x = gfmul (evalAt p x) (x ^^^ expValue i) := by
  rw [pmul_linearFactor, evalAt_zipWith_xor (by simp), evalAt_concat, evalAt_zero_cons, evalAt_map_gfmul,
    BitVec.xor_zero, gfmul_xor]

/-! ## The generators -/

/-- Each factor contributes its own root. -/
theorem evalAt_genpoly {n i : Nat} (h : i < n) : evalAt (genpoly n) (expValue i) = 0#8 := by
  induction n with
  | zero => exact absurd h (Nat.not_lt_zero i)
  | succ n ih =>
    rw [genpoly, evalAt_pmul_linearFactor]
    rcases Nat.lt_succ_iff_lt_or_eq.mp h with hi | rfl
    · rw [ih hi, zero_gfmul]
    · rw [BitVec.xor_self, gfmul_zero]

theorem getD_genpoly_zero (n : Nat) : (genpoly n).getD 0 0#8 = 1#8 := by
  induction n with
  | zero => rfl
  | succ n ih => rw [genpoly, getD_pmul_linearFactor, ih, List.getD_cons_zero, zero_gfmul, BitVec.xor_zero]

theorem getD_genpoly_succ (n k : Nat) :
    (genpoly (n + 1)).getD (k + 1) 0#8 =
      (genpoly n).getD (k + 1) 0#8 ^^^ gfmul ((genpoly n).getD k 0#8) (expValue n) :=
  getD_pmul_linearFactor (genpoly n) n (k + 1)

/-- The same coefficient with factor 0 taken out last: the factors 1 to `n` are those of `genpoly n` with the argument
scaled by `alpha`. -/
theorem getD_genpoly_succ_scaled (n k : Nat) :
    (genpoly (n + 1)).getD (k + 1) 0#8 =
      gfmul ((genpoly n).getD (k + 1) 0#8) (expValue (k + 1)) ^^^ gfmul ((genpoly n).getD k 0#8) (expValue k) := by
  induction n generalizing k with
  | zero =>
    rw [getD_genpoly_succ]
    cases k <;> simp [genpoly]
  | succ n ih =>
    cases k with
    | zero =>
      rw [getD_genpoly_succ n 0, getD_genpoly_succ (n + 1), ih]
      simp only [getD_genpoly_zero, xor_gfmul, one_gfmul, gfmul_expValue, expValue_zero]
      ac_rfl
    | succ k =>
      rw [getD_genpoly_succ n (k + 1), getD_genpoly_succ n k, getD_genpoly_succ (n + 1), ih, ih]
      simp only [xor_gfmul, gfmul_assoc, gfmul_expValue]
      ac_rfl

/-- A zero coefficient behind a nonzero one would, by the two forms of the next generator, make two powers equal. -/
theorem getD_genpoly_ne_zero {n k : Nat} (hn : n < 255) (hk : k ≤ n) : (genpoly n).getD k 0#8 ≠ 0#8 := by
  induction k with
  | zero => exact getD_genpoly_zero n ▸ by decide
  | succ k ih =>
    intro hzero
    have hforms := (getD_genpoly_succ n k).symm.trans (getD_genpoly_succ_scaled n k)
    rw [hzero, zero_gfmul, BitVec.zero_xor, BitVec.zero_xor] at hforms
    rcases gfmul_cancel hforms with h | h
    · exact ih (by omega) h
    · exact absurd (expValue_inj hn (by omega) h) (by omega)

/-- Settles O19: every factor brings its root, and no coefficient is zero up to degree 254. -/
theorem generatorRoots : Obligations.GeneratorRoots := by
  unfold Obligations.GeneratorRoots
  intro n hn
  refine ⟨length_genpoly n, ?_, fun c hc => ?_, fun i hi => evalAt_genpoly hi⟩
  · rw [List.head?_eq_getElem?, getElem?_eq_some_getD (by simp), getD_genpoly_zero]
  · obtain ⟨k, hk, rfl⟩ := List.mem_iff_getElem.mp hc
    rw [← List.getD_eq_getElem _ 0#8 hk]
    exact getD_genpoly_ne_zero (by omega) (by simpa [Nat.lt_succ_iff] using hk)

end Sys2Proof.Machine
end

section
/-! PROOFS. The arithmetic commands (R146, R147, R152, R153): the field commands write `P`, `GENP` loads a generator,
and `PMULL` takes the polynomial in `GEN` to its product with one linear factor. -/

namespace Sys2Proof.Machine

open Sys2Proof.Config Sys2Proof.Claims

/-! ## The field commands -/

/-- A command of the stages 0 to 17 whose body completes there. -/
theorem State.command_running_ok {s t : State} {body : State → Except Fault State} (hs : s.stage.toNat ≤ 17)
    (hb : body s = .ok t) : s.command running body = t :=
  s.command_ok _ _ t (State.running_ne_err hs) (decide_eq_true hs) hb

/-- Settles O10: the stages 0 to 17 accept both commands, and their bodies only set `P`. -/
theorem fieldCommandsWriteOnlyP : Obligations.FieldCommandsWriteOnlyP := by
  unfold Obligations.FieldCommandsWriteOnlyP
  intro s a b hs
  exact ⟨congrArg Host.Outcome.next (State.command_running_ok hs rfl),
    congrArg Host.Outcome.next (State.command_running_ok hs rfl)⟩

/-! ## `GENP` -/

/-- A command of stage 0 whose body completes there. -/
theorem State.command_stage0_ok {s t : State} {body : State → Except Fault State} (hs : s.stage = 0#5)
    (hb : body s = .ok t) : s.command (fun k => k == 0#5) body = t :=
  s.command_ok _ _ t (by rw [hs]; decide) (by rw [hs]; rfl) hb

/-- The state in which `GEN` holds the generator of degree `n` and nothing else. -/
def State.withGenerator (s : State) (n : Nat) : State :=
  { s with gen := Memory.number 0 (genpoly n), gdeg := some (BitVec.ofNat 5 n) }

theorem State.loadGen_eq_withGenerator (s : State) {n : Nat} (hn : n ≤ 30) :
    s.loadGen n (genpoly n) = s.withGenerator n := by
  rw [State.withGenerator, ← s.loadGen_gen hn]
  rfl

theorem exec_genp {s : State} {a : Byte} (hs : s.stage = 0#5) (ha : a.toNat ≤ 30) :
    exec (.genp a) s = .next (s.withGenerator a.toNat) := by
  have hbody : genpBody a s = .ok (s.withGenerator a.toNat) := by
    rw [genpBody, if_pos ha, s.loadGen_eq_withGenerator ha]
  exact congrArg Host.Outcome.next (State.command_stage0_ok hs hbody)

/-- Settles O11: what `GEN` held before is overwritten or discarded. -/
theorem genpLoadsGenerator : Obligations.GenpLoadsGenerator := by
  unfold Obligations.GenpLoadsGenerator
  exact fun s a hs ha => ⟨length_genpoly a.toNat, exec_genp hs ha⟩

/-! ## `PMULL` -/

/-- The polynomial in `GEN`, of degree `d`, times the linear factor of R153. -/
def State.genProduct (s : State) (d i : Nat) : Poly := pmul (s.genList (d + 1)) (linearFactor i)

@[simp] theorem State.length_genProduct (s : State) (d i : Nat) : (s.genProduct d i).length = d + 2 := by
  rw [State.genProduct, length_pmul, length_genList]
  rfl

/-- `PMULL` on a polynomial of degree at most 29 writes the product over it. -/
theorem exec_pmull {s : State} {a : Byte} {d : Nat} (hs : s.stage = 0#5) (hd : d ≤ 29)
    (hdeg : s.gdeg = some (BitVec.ofNat 5 d)) :
    exec (.pmull a) s = .next { s with
      gen := s.gen.writeRange genDepth 0 (s.genProduct d a.toNat)
      gdeg := some (BitVec.ofNat 5 (d + 1)) } := by
  have hval : (BitVec.ofNat 5 d).toNat = d := toNat_ofNat_of_lt (by omega)
  refine congrArg Host.Outcome.next (State.command_stage0_ok hs ?_)
  rw [pmullBody, hdeg]
  simp only [hval]
  rw [if_neg (by omega), BitVec.ofNat_add]
  rfl

/-- A written coefficient is read without a draw. -/
theorem State.getD_genList {s : State} {n k : Nat} {x : Byte} (hk : k < n) (h : s.gen.read k = some x) :
    (s.genList n).getD k 0#8 = x := by
  simp [State.genList, hk, State.genAt, State.element, h]

/-- A coefficient of the product (R153). -/
theorem State.getElem?_genProduct (s : State) {d k : Nat} (i : Nat) (h : k < d + 2) :
    (s.genProduct d i)[k]? = some ((s.genList (d + 1)).getD k 0#8 ^^^
      gfmul ((0#8 :: s.genList (d + 1)).getD k 0#8) (expValue i)) := by
  rw [getElem?_eq_some_getD (by rwa [s.length_genProduct]), State.genProduct, getD_pmul_linearFactor]

/-- Settles O12: the elements 0 to `d`+1 are the coefficients of the product, and those behind stay. -/
theorem pmullMultipliesByLinearFactor : Obligations.PmullMultipliesByLinearFactor := by
  unfold Obligations.PmullMultipliesByLinearFactor
  intro s a d hs hd hdeg hheld
  have hdepth : (s.genProduct d a.toNat).length ≤ genDepth := by
    rw [s.length_genProduct, genDepth]
    omega
  have hread : ∀ k, k < d + 2 → (s.gen.writeRange genDepth 0 (s.genProduct d a.toNat)).read k =
      some ((s.genList (d + 1)).getD k 0#8 ^^^ gfmul ((0#8 :: s.genList (d + 1)).getD k 0#8) (expValue a.toNat)) :=
    fun k hk => (Memory.read_writeRange_zero_of_lt _ _ hdepth (by rwa [s.length_genProduct])).trans
      (s.getElem?_genProduct a.toNat hk)
  refine ⟨_, exec_pmull hs hd hdeg, rfl, ?_, fun j x y hlow hj hx hy => ?_, fun y hy => ?_, fun j hj => ?_⟩
  · obtain ⟨x, hx⟩ := Option.isSome_iff_exists.mp (List.all_eq_true.mp hheld 0 (List.mem_range.mpr d.succ_pos))
    rw [hread 0 (by omega), State.getD_genList d.succ_pos hx, List.getD_cons_zero, zero_gfmul, BitVec.xor_zero, hx]
  · obtain ⟨k, rfl⟩ := Nat.exists_eq_add_of_le' hlow
    rw [Nat.add_sub_cancel] at hy
    rw [hread _ (by omega), State.getD_genList (by omega) hx, List.getD_cons_succ, State.getD_genList (by omega) hy]
  · rw [hread _ (by omega), List.getD_eq_default _ _ (length_genList s _).le, List.getD_cons_succ,
      State.getD_genList d.lt_succ_self hy, BitVec.zero_xor]
  · exact Memory.read_writeRange_zero_of_ge _ _ hdepth (by rwa [s.length_genProduct])

/-! ## `GENP` as repeated `PMULL` -/

/-- A numbered list written over a shorter one replaces it. -/
theorem Memory.writeRange_number {w depth : Nat} {us vs : List (BitVec w)} (h : us.length ≤ vs.length)
    (hd : vs.length ≤ depth) : (Memory.number 0 us).writeRange depth 0 vs = Memory.number 0 vs := by
  have hlow : (Memory.number 0 us).discardFrom 0 = [] := by simp [Memory.discardFrom]
  have hhigh : (Memory.number 0 us).keepFrom (0 + vs.length) = [] := by
    refine List.filter_eq_nil_iff.mpr fun c hc => ?_
    have := Memory.mem_number _ _ _ hc
    simp only [decide_eq_true_eq]
    omega
  rw [Memory.writeRange, hlow, hhigh, List.nil_append, List.append_nil, Nat.sub_zero, List.take_of_length_le hd]

/-- The generator loaded is the polynomial that `PMULL` reads. -/
theorem State.genList_withGenerator (s : State) (n : Nat) : (s.withGenerator n).genList (n + 1) = genpoly n := by
  refine List.ext_getElem (by simp) fun k hk hk' => ?_
  have hread : (s.withGenerator n).gen.read k = some (genpoly n)[k] := by
    rw [State.withGenerator, Memory.read_number, if_pos k.zero_le, Nat.sub_zero, List.getElem?_eq_getElem hk']
  rw [← List.getD_eq_getElem _ 0#8 hk, State.getD_genList (by simpa using hk) hread]

/-- R150, R153: one more factor makes the next generator. -/
theorem exec_pmull_withGenerator {s : State} {n : Nat} (hs : s.stage = 0#5) (hn : n ≤ 29) :
    exec (.pmull (BitVec.ofNat 8 n)) (s.withGenerator n) = .next (s.withGenerator (n + 1)) := by
  have hval : (BitVec.ofNat 8 n).toNat = n := toNat_ofNat_of_lt (by omega)
  have hproduct : (s.withGenerator n).genProduct n n = genpoly (n + 1) := by
    rw [State.genProduct, s.genList_withGenerator, genpoly]
  have hgen : (s.withGenerator n).gen.writeRange genDepth 0 (genpoly (n + 1)) = Memory.number 0 (genpoly (n + 1)) :=
    Memory.writeRange_number (by simp) (by rw [length_genpoly, genDepth]; omega)
  rw [exec_pmull (s := s.withGenerator n) hs hn rfl, hval, hproduct, hgen]
  rfl

/-- Commands one after another, the last one set apart. -/
theorem runAll_concat {is : List Instr} {s t : State} (i : Instr) (h : runAll is s = .next t) :
    runAll (is ++ [i]) s = exec i t := by
  induction is generalizing s with
  | nil =>
    obtain rfl := Host.Outcome.next.inj h
    obtain ⟨u, hu⟩ := exec_is_next i s
    simp [runAll, hu]
  | cons j is ih =>
    obtain ⟨u, hu⟩ := exec_is_next j s
    rw [runAll, hu] at h
    rw [List.cons_append, runAll, hu]
    exact ih h

theorem runAll_pmull_withGenerator {s : State} {n : Nat} (hs : s.stage = 0#5) (hn : n ≤ 30) :
    runAll ((List.range n).map fun i => .pmull (BitVec.ofNat 8 i)) (s.withGenerator 0) = .next (s.withGenerator n) := by
  induction n with
  | zero => rfl
  | succ n ih =>
    rw [List.range_succ, List.map_append, List.map_singleton, runAll_concat _ (ih (by omega)),
      exec_pmull_withGenerator hs (by omega)]

/-- Settles O14: `GENP` 0 loads the polynomial 1, and each `PMULL` takes one generator to the next. -/
theorem genpEqualsRepeatedPmull : Obligations.GenpEqualsRepeatedPmull := by
  unfold Obligations.GenpEqualsRepeatedPmull
  intro s n hs hn
  have hval : (BitVec.ofNat 8 n).toNat = n := toNat_ofNat_of_lt (by omega)
  rw [exec_genp hs (by rwa [hval]), hval, runAll, exec_genp hs (by decide)]
  exact (runAll_pmull_withGenerator hs hn).symm

end Sys2Proof.Machine
end

section
/-! PROOFS. The division (R162, R163, R165): one pass of the loop as a sum of polynomials, the length of the remainder,
why data with its parity appended keeps the roots of a monic divisor, and why the parity is linear in the data. -/

namespace Sys2Proof.Machine

open Sys2Proof.Claims

/-! ## Sums of polynomials -/

/-- Adding zeros changes nothing. -/
theorem zipWith_xor_map_gfmul_zero {p q : Poly} (h : p.length = q.length) :
    List.zipWith (· ^^^ ·) p (q.map fun c => gfmul c 0#8) = p := by
  refine List.ext_getElem (by simp [h]) fun k _ _ => ?_
  rw [List.getElem_zipWith, List.getElem_map, gfmul_zero, BitVec.xor_zero]

/-- The two inner summands of a sum of two sums change places. -/
theorem zipWith_xor_zipWith_xor_comm (p q r t : Poly) :
    List.zipWith (· ^^^ ·) (List.zipWith (· ^^^ ·) p q) (List.zipWith (· ^^^ ·) r t) =
      List.zipWith (· ^^^ ·) (List.zipWith (· ^^^ ·) p r) (List.zipWith (· ^^^ ·) q t) := by
  refine List.ext_getElem ?_ fun k _ _ => ?_
  · simp only [List.length_zipWith]
    omega
  · simp only [List.getElem_zipWith]
    ac_rfl

/-- Multiples of one polynomial add by their factors. -/
theorem map_gfmul_xor (p : Poly) (a b : Byte) :
    p.map (fun c => gfmul c (a ^^^ b)) =
      List.zipWith (· ^^^ ·) (p.map fun c => gfmul c a) (p.map fun c => gfmul c b) := by
  rw [List.zipWith_map, List.zipWith_self]
  simp only [gfmul_xor]

theorem tail_append_zero_zipWith_xor {p q : Poly} (h : p.length = q.length) :
    (List.zipWith (· ^^^ ·) p q).tail ++ [0#8] =
      List.zipWith (· ^^^ ·) (p.tail ++ [0#8]) (q.tail ++ [0#8]) := by
  rw [List.tail_zipWith, List.zipWith_append (by simp [h])]
  rfl

theorem headD_zipWith_xor {p q : Poly} (h : p.length = q.length) :
    (List.zipWith (· ^^^ ·) p q).headD 0#8 = p.headD 0#8 ^^^ q.headD 0#8 := by
  cases p with
  | nil =>
    obtain rfl := List.length_eq_zero_iff.mp h.symm
    rfl
  | cons a p =>
    cases q with
    | nil => simp at h
    | cons b q => rfl

/-! ## One pass of the division -/

/-- R162 without its case distinction: where the factor is 0, the multiple that the pass adds is zero. -/
theorem rsStep_eq {r gen : Poly} (c : Byte) (hr : r.length = gen.length - 1) (hgen : 2 ≤ gen.length) :
    rsStep r gen c =
      List.zipWith (· ^^^ ·) (r.tail ++ [0#8]) (gen.tail.map fun g => gfmul g (c ^^^ r.headD 0#8)) := by
  have hlen : (r.tail ++ [0#8]).length = gen.tail.length := by
    simp only [List.length_append, List.length_tail, List.length_singleton]
    omega
  by_cases hzero : c ^^^ r.headD 0#8 = 0#8
  · have hpass : rsStep r gen c = r.tail ++ [0#8] := if_neg (not_not.mpr hzero)
    rw [hpass, hzero, zipWith_xor_map_gfmul_zero hlen]
  · rw [List.zipWith_map_right]
    exact if_pos hzero

theorem length_rsStep {r gen : Poly} (c : Byte) (hr : r.length = gen.length - 1) (hgen : 2 ≤ gen.length) :
    (rsStep r gen c).length = gen.length - 1 := by
  rw [rsStep_eq c hr hgen]
  simp only [List.length_zipWith, List.length_append, List.length_map, List.length_tail, List.length_singleton]
  omega

/-- R162: with a monic divisor, a pass replaces the remainder's leading coefficient by the codeword that it divides off,
by adding a multiple of the divisor. -/
theorem cons_rsStep {r gen : Poly} (c : Byte) (hr : r.length = gen.length - 1) (hgen : 2 ≤ gen.length)
    (hmonic : gen.head? = some 1#8) :
    c :: rsStep r gen c =
      List.zipWith (· ^^^ ·) (r ++ [0#8]) (gen.map fun g => gfmul g (c ^^^ r.headD 0#8)) := by
  rw [rsStep_eq c hr hgen]
  obtain ⟨g, rfl⟩ := List.head?_eq_some_iff.mp hmonic
  cases r with
  | nil =>
    rw [List.length_nil] at hr
    omega
  | cons h r =>
    have hhead : h ^^^ (c ^^^ h) = c := by
      rw [BitVec.xor_comm c h, ← BitVec.xor_assoc, BitVec.xor_self, BitVec.zero_xor]
    simp [hhead]

theorem rsStep_zipWith_xor {r t gen : Poly} (c d : Byte) (hr : r.length = gen.length - 1)
    (ht : t.length = gen.length - 1) (hgen : 2 ≤ gen.length) :
    rsStep (List.zipWith (· ^^^ ·) r t) gen (c ^^^ d) =
      List.zipWith (· ^^^ ·) (rsStep r gen c) (rsStep t gen d) := by
  have hrt : r.length = t.length := hr.trans ht.symm
  have hfactor : (c ^^^ d) ^^^ (r.headD 0#8 ^^^ t.headD 0#8) = (c ^^^ r.headD 0#8) ^^^ (d ^^^ t.headD 0#8) := by
    ac_rfl
  rw [rsStep_eq (c ^^^ d) (by rw [List.length_zipWith, hr, ht, Nat.min_self]) hgen, rsStep_eq c hr hgen,
    rsStep_eq d ht hgen, headD_zipWith_xor hrt, hfactor, map_gfmul_xor, tail_append_zero_zipWith_xor hrt,
    zipWith_xor_zipWith_xor_comm]

/-! ## The remainder -/

theorem prem_nil (gen : Poly) : prem [] gen = List.replicate (gen.length - 1) 0#8 := rfl

theorem prem_concat (data gen : Poly) (c : Byte) : prem (data ++ [c]) gen = rsStep (prem data gen) gen c :=
  List.foldl_append ..

theorem length_prem (data : Poly) {gen : Poly} (hgen : 2 ≤ gen.length) : (prem data gen).length = gen.length - 1 := by
  induction data using List.reverseRecOn with
  | nil => rw [prem_nil, List.length_replicate]
  | append_singleton data c ih => rw [prem_concat, length_rsStep c ih hgen]

/-! ## Roots -/

theorem evalAt_append (p q : Poly) (x : Byte) :
    evalAt (p ++ q) x = q.foldl (fun acc c => gfmul acc x ^^^ c) (evalAt p x) :=
  List.foldl_append ..

theorem evalAt_replicate_zero (n : Nat) (x : Byte) : evalAt (List.replicate n 0#8) x = 0#8 := by
  induction n with
  | zero => rfl
  | succ n ih => rw [List.replicate_succ, evalAt_zero_cons, ih]

/-- The value after one more pass: the old value, shifted by one place, and a multiple of the divisor's. -/
theorem evalAt_append_cons_rsStep (data : Poly) {r gen : Poly} (c x : Byte) (hr : r.length = gen.length - 1)
    (hgen : 2 ≤ gen.length) (hmonic : gen.head? = some 1#8) :
    evalAt (data ++ c :: rsStep r gen c) x =
      gfmul (evalAt (data ++ r) x) x ^^^ gfmul (evalAt gen x) (c ^^^ r.headD 0#8) := by
  have hlen : (r ++ [0#8]).length = (gen.map fun g => gfmul g (c ^^^ r.headD 0#8)).length := by
    rw [List.length_append, List.length_map, List.length_singleton]
    omega
  have hsum := foldl_zipWith_xor x (evalAt data x) 0#8 hlen
  rw [BitVec.xor_zero] at hsum
  calc evalAt (data ++ c :: rsStep r gen c) x
      = evalAt (data ++ (r ++ [0#8])) x ^^^ evalAt (gen.map fun g => gfmul g (c ^^^ r.headD 0#8)) x := by
        rw [cons_rsStep c hr hgen hmonic, evalAt_append, hsum, evalAt_append]
        rfl
    _ = gfmul (evalAt (data ++ r) x) x ^^^ gfmul (evalAt gen x) (c ^^^ r.headD 0#8) := by
        rw [← List.append_assoc, evalAt_concat, BitVec.xor_zero, evalAt_map_gfmul]

/-- R165: data followed by its remainder keeps every root of a monic divisor. -/
theorem evalAt_append_prem (data : Poly) {gen : Poly} {x : Byte} (hgen : 2 ≤ gen.length)
    (hmonic : gen.head? = some 1#8) (hroot : evalAt gen x = 0#8) : evalAt (data ++ prem data gen) x = 0#8 := by
  induction data using List.reverseRecOn with
  | nil => exact evalAt_replicate_zero _ x
  | append_singleton data c ih =>
    rw [prem_concat, List.append_assoc, List.singleton_append,
      evalAt_append_cons_rsStep data c x (length_prem data hgen) hgen hmonic, ih, hroot, zero_gfmul, zero_gfmul,
      BitVec.xor_self]

/-- Settles O20: the generators are monic with these roots, and every pass of the division adds a multiple of them. -/
theorem parityMakesMultipleOfGenerator : Obligations.ParityMakesMultipleOfGenerator := by
  unfold Obligations.ParityMakesMultipleOfGenerator
  intro data n i hn hi
  have hgen : 2 ≤ (genpoly n).length := by
    rw [length_genpoly]
    omega
  obtain ⟨hlen, hmonic, _, hroots⟩ := generatorRoots n hn
  refine ⟨?_, evalAt_append_prem data hgen hmonic (hroots i hi)⟩
  rw [length_prem data hgen, hlen, Nat.add_sub_cancel]

/-! ## Linearity -/

theorem foldl_rsStep_zipWith_xor {gen : Poly} (hgen : 2 ≤ gen.length) {d e r t : Poly} (hde : d.length = e.length)
    (hr : r.length = gen.length - 1) (ht : t.length = gen.length - 1) :
    (List.zipWith (· ^^^ ·) d e).foldl (fun rem cw => rsStep rem gen cw) (List.zipWith (· ^^^ ·) r t) =
      List.zipWith (· ^^^ ·) (d.foldl (fun rem cw => rsStep rem gen cw) r)
        (e.foldl (fun rem cw => rsStep rem gen cw) t) := by
  induction d generalizing e r t with
  | nil =>
    obtain rfl := List.length_eq_zero_iff.mp hde.symm
    rfl
  | cons c d ih =>
    cases e with
    | nil => simp at hde
    | cons c' e =>
      rw [List.zipWith_cons_cons, List.foldl_cons, rsStep_zipWith_xor c c' hr ht hgen,
        ih (Nat.succ.inj hde) (length_rsStep c hr hgen) (length_rsStep c' ht hgen), List.foldl_cons, List.foldl_cons]

/-- Settles O21: every pass is linear in the remainder and the codeword together, and both divisions start from zero. -/
theorem parityIsLinear : Obligations.ParityIsLinear := by
  unfold Obligations.ParityIsLinear
  intro d e g hde hg
  have hzero : List.zipWith gfadd (List.replicate (g.length - 1) 0#8) (List.replicate (g.length - 1) 0#8) =
      List.replicate (g.length - 1) 0#8 := by
    rw [List.zipWith_replicate', gfadd, BitVec.xor_self]
  have hlen := List.length_replicate (n := g.length - 1) (a := 0#8)
  rw [prem, ← hzero]
  exact foldl_rsStep_zipWith_xor hg hde hlen hlen

end Sys2Proof.Machine
end

section
/-! PROOFS. The Reed-Solomon commands (R161, R164, R166): `RSGEN` loads the generator, `PREM` leaves the remainder of
what the written elements of `CW` and `GEN` hold, and `CAT` copies it behind the data. -/

namespace Sys2Proof.Machine

open Sys2Proof.Config Sys2Proof.Claims

/-! ## Written elements -/

/-- A range of written elements is read without a draw. -/
theorem State.map_element_eq {w n : Nat} (s : State) (x : SpaceId) {m : Memory w} {vs : List (BitVec w)}
    (hlen : vs.length = n) (h : ∀ k, k < n → m.read k = vs[k]?) :
    (List.range n).map (fun k => s.element x k (m.read k)) = vs := by
  refine List.ext_getElem (by simp [hlen]) fun k _ hk => ?_
  rw [List.getElem_map, List.getElem_range, h k (hlen ▸ hk), List.getElem?_eq_getElem hk]
  rfl

theorem State.getElem?_remList {s : State} {e i : Nat} (h : s.rem.holdsBelow e = true) (hi : i < e) :
    (s.remList e)[i]? = s.rem.read i := by
  obtain ⟨x, hx⟩ := Option.isSome_iff_exists.mp (List.all_eq_true.mp h i (List.mem_range.mpr hi))
  rw [State.remList, List.getElem?_map, List.getElem?_range hi, Option.map_some, State.remAt, hx]
  rfl

/-! ## The three commands -/

/-- Settles O27: `RSGEN` loads what `GENP` with the operand `EC` loads, one stage on. -/
theorem rsgenLoadsGenerator : Obligations.RsgenLoadsGenerator := by
  unfold Obligations.RsgenLoadsGenerator
  intro s e hs he hec
  have hecN : s.ecN = e := s.operand_toNat .ec hec (by omega)
  have hbody : rsgenBody s = .ok (s.withGenerator e) := by
    rw [rsgenBody, hecN, s.loadGen_eq_withGenerator he]
  exact congrArg Host.Outcome.next (s.pipeline_ok 3#5 rsgenBody _ (by decide) hs hbody)

/-- Settles O28: the remainder has `EC` coefficients, which take the place of all that `REM` held. -/
theorem premLeavesRemainder : Obligations.PremLeavesRemainder := by
  unfold Obligations.PremLeavesRemainder
  intro s m e data gen hs hm hndc hlow he hec hdata hcw hgen hcoeff
  have hndcN : s.ndcN = m := s.operand_toNat .ndc hndc hm
  have hecN : s.ecN = e := s.operand_toNat .ec hec (by omega)
  have hcwList : s.cwList m = data := s.map_element_eq .cw hdata hcw
  have hgenList : s.genList (e + 1) = gen := s.map_element_eq .gen hgen hcoeff
  have hlen : (prem data gen).length = e := by
    rw [length_prem data (by omega), hgen, Nat.add_sub_cancel]
  have hbody : premBody s = .ok (s.setRem (Memory.number 0 (prem data gen))) := by
    rw [premBody, hndcN, hecN, hcwList, hgenList, Memory.rewritten_eq_number s.rem hlen.ge he,
      List.take_of_length_le hlen.le]
  exact congrArg Host.Outcome.next (s.pipeline_ok 4#5 premBody _ (by decide) hs hbody)

/-- Settles O29: the write from `NDC` on puts the written remainder behind the data and reaches no other codeword. -/
theorem catAppendsParity : Obligations.CatAppendsParity := by
  unfold Obligations.CatAppendsParity
  intro s m e hs hme hndc he hec hheld
  have hndcN : s.ndcN = m := s.operand_toNat .ndc hndc (by omega)
  have hecN : s.ecN = e := s.operand_toNat .ec hec (by omega)
  have hbody : catBody s = .ok (s.setAll (s.cw.writeRange cwDepth m (s.remList e)) (BitVec.ofNat 9 (m + e))) := by
    rw [catBody, hndcN, hecN]
  have hread : ∀ k, (s.cw.writeRange cwDepth m (s.remList e)).read k =
      if m ≤ k ∧ k < m + e then (s.remList e)[k - m]? else s.cw.read k := by
    intro k
    rw [Memory.read_writeRange _ _ _ _ _ (by rw [length_remList]; exact hme.le), length_remList]
  refine ⟨_, congrArg Host.Outcome.next (s.pipeline_ok 5#5 catBody _ (by decide) hs hbody), rfl, fun i hi => ?_,
    fun k hk => ?_⟩
  · refine (hread (m + i)).trans ?_
    rw [if_pos (by omega), Nat.add_sub_cancel_left, State.getElem?_remList hheld hi]
  · exact (hread k).trans (if_neg (by omega))

end Sys2Proof.Machine
end

section
/-! SUPPORT. Lists of cells that draw a pattern: what a stamp of them leaves in a grid, and the lists of the finder,
timing, dark, format and version cells against the rules that describe them (R182 to R196). -/

namespace Sys2Proof.Machine

open Sys2Proof.Config Sys2Proof.Claims

/-! ## A command that writes cells -/

/-- In a grid of `n` rows the index of R66 names one cell. -/
theorem cellIndex_inj {n : Nat} {x y : Cell} (hx : x.2 < n) (hy : y.2 < n) (h : cellIndex n x = cellIndex n y) :
    x = y := by
  have hn : 0 < n := Nat.zero_lt_of_lt hx
  have hrow : ∀ z : Cell, z.2 < n → cellIndex n z / n = z.1 := fun z hz => by
    rw [cellIndex, Nat.mul_comm, Nat.mul_add_div hn, Nat.div_eq_of_lt hz, Nat.add_zero]
  have hcol : ∀ z : Cell, z.2 < n → cellIndex n z % n = z.2 := fun z hz => by
    rw [cellIndex, Nat.mul_comm, Nat.mul_add_mod, Nat.mod_eq_of_lt hz]
  exact Prod.ext ((hrow x hx).symm.trans (h ▸ hrow y hy)) ((hcol x hx).symm.trans (h ▸ hcol y hy))

/-- A stamped element takes the value that all its stamps agree on. -/
theorem read_stamp_of_agree {n : Nat} {m : Memory 1} {cells : List (Cell × Bit)} {x : Cell} {b : Bit}
    (hx : (x, b) ∈ cells) (hd : cellIndex n x < gridDepth)
    (hagree : ∀ c ∈ cells, cellIndex n c.1 = cellIndex n x → c.2 = b) :
    (stamp n m cells).read (cellIndex n x) = some b := by
  induction cells using List.reverseRecOn with
  | nil => simp at hx
  | append_singleton cells c ih =>
    have hlast : stamp n m (cells ++ [c]) = (stamp n m cells).write gridDepth (cellIndex n c.1) c.2 := by
      simp [stamp]
    rw [hlast]
    by_cases hc : cellIndex n c.1 = cellIndex n x
    · rw [hc, Memory.read_write_same _ _ _ _ hd, hagree c (by simp) hc]
    · rw [Memory.read_write_other _ _ _ _ _ (Ne.symm hc)]
      refine ih ?_ fun d hd' => hagree d (List.mem_append_left _ hd')
      rcases List.mem_append.mp hx with h | h
      · exact h
      · exact absurd (by rw [← List.mem_singleton.mp h]) hc

/-- In a grid of `n` rows, exactly the cells to which `f` gives a value are listed, each with that value. -/
structure Draws {α : Type} (n : Nat) (cells : List (Cell × α)) (f : Nat → Nat → Option α) : Prop where
  inGrid : InGrid n (cells.map Prod.fst)
  mem_iff : ∀ r c a, r < n → c < n → (((r, c), a) ∈ cells ↔ f r c = some a)

namespace Draws

variable {n : Nat}

theorem painted {cells : List (Cell × Bit)} {f : Nat → Nat → Option Bit} (h : Draws n cells f) (hn : n ≤ 64)
    (m : Memory 1) : Painted n m (stamp n m cells) f := by
  have hin : ∀ c ∈ cells, c.1.1 < n ∧ c.1.2 < n := fun c hc => h.inGrid c.1 (List.mem_map_of_mem hc)
  refine ⟨fun r c hr hc => ?_, fun k hk => read_stamp_other n m cells k ?_⟩
  · change (stamp n m cells).read (cellIndex n (r, c)) = (f r c).or (m.read (cellIndex n (r, c)))
    have hsame : ∀ d ∈ cells, cellIndex n d.1 = cellIndex n (r, c) → f r c = some d.2 := by
      intro d hd e
      have hcell := cellIndex_inj (hin d hd).2 hc e
      exact (h.mem_iff r c d.2 hr hc).mp (hcell ▸ hd)
    cases hf : f r c with
    | none => exact read_stamp_other n m cells _ fun d hd e => by simp [hsame d hd e] at hf
    | some b =>
      have hdepth : cellIndex n (r, c) < gridDepth := (cellIndex_lt hr hc).trans_le (Nat.mul_le_mul hn hn)
      refine read_stamp_of_agree ((h.mem_iff r c b hr hc).mpr hf) hdepth fun d hd e => ?_
      exact Option.some.inj ((hsame d hd e).symm.trans hf)
  · rintro c hc rfl
    exact absurd (cellIndex_lt (hin c hc).1 (hin c hc).2) (Nat.not_lt.mpr hk)

/-- The same cells, each with a function of its value. -/
theorem map {α β : Type} {cells : List (Cell × α)} {f : Nat → Nat → Option α} (h : Draws n cells f) (g : α → β) :
    Draws n (cells.map fun x => (x.1, g x.2)) (fun r c => (f r c).map g) := by
  refine ⟨?_, fun r c b hr hc => ?_⟩
  · rw [List.map_map]
    exact h.inGrid
  · simp only [Option.map_eq_some_iff, ← h.mem_iff r c _ hr hc, List.mem_map, Prod.exists, Prod.mk.injEq]
    constructor
    · rintro ⟨_, _, a, hmem, ⟨rfl, rfl⟩, hb⟩
      exact ⟨a, hmem, hb⟩
    · rintro ⟨a, hmem, hb⟩
      exact ⟨r, c, a, hmem, ⟨rfl, rfl⟩, hb⟩

/-- The flags of the cells of a list, whatever values it gives them (R180). -/
theorem painted_flag {α : Type} {cells : List (Cell × α)} {f : Nat → Nat → Option α} (h : Draws n cells f)
    (hn : n ≤ 64) (m : Memory 1) :
    Painted n m (flag n m (cells.map Prod.fst)) (fun r c => (f r c).map fun _ => 1#1) := by
  rw [flag, List.map_map]
  exact (h.map fun _ => 1#1).painted hn m

end Draws

/-! ## The cells of the patterns -/

/-- The value at the offsets of a cell, in the words of R182: light in the separator and in the inner ring. -/
theorem finderBit_eq {r0 c0 r c i j : Nat} (hi : r0 + i = r + 1) (hj : c0 + j = c + 1) :
    finderBit i j = if r0 ≤ r ∧ r ≤ r0 + 6 ∧ c0 ≤ c ∧ c ≤ c0 + 6 ∧
      max (Int.natAbs ((r : Int) - (r0 + 3))) (Int.natAbs ((c : Int) - (c0 + 3))) ≠ 2 then 1#1 else 0#1 := by
  have hring : max (distance i 4) (distance j 4) =
      max (Int.natAbs ((r : Int) - (r0 + 3))) (Int.natAbs ((c : Int) - (c0 + 3))) := by
    simp only [distance]
    omega
  have hin : (1 ≤ i ∧ i ≤ 7 ∧ 1 ≤ j ∧ j ≤ 7) ↔ (r0 ≤ r ∧ r ≤ r0 + 6 ∧ c0 ≤ c ∧ c ≤ c0 + 6) := by omega
  simp only [finderBit, hring, hin, ← ite_not (_ = 2), ← ite_and, and_assoc, ne_eq]

/-- One finder pattern with its separator, clipped to the grid (R182, R184). -/
theorem mem_finderCellsAt {n r c : Nat} {b : Bit} (o : Cell) (hr : r < n) (hc : c < n) :
    ((r, c), b) ∈ finderCellsAt n o ↔ finderAt o.1 o.2 r c = some b := by
  simp only [finderCellsAt, List.mem_flatMap, List.mem_filterMap, List.mem_range, Option.ite_none_right_eq_some,
    Option.some.injEq, Prod.mk.injEq, finderAt]
  constructor
  · rintro ⟨i, hi, j, hj, hin, ⟨rfl, rfl⟩, rfl⟩
    exact ⟨by omega, (finderBit_eq (by omega) (by omega)).symm⟩
  · rintro ⟨hin, rfl⟩
    exact ⟨r + 1 - o.1, by omega, c + 1 - o.2, by omega, by omega, ⟨by omega, by omega⟩,
      finderBit_eq (by omega) (by omega)⟩

/-- A finder pattern covers the span of its 7 by 7 cells and their separator. -/
theorem isSome_finderAt_iff {r0 c0 r c : Nat} :
    (finderAt r0 c0 r c).isSome = true ↔ r0 ≤ r + 1 ∧ r ≤ r0 + 7 ∧ c0 ≤ c + 1 ∧ c ≤ c0 + 7 :=
  Option.isSome_ite

theorem finderAt_eq_none {r0 c0 r c : Nat} (h : ¬ (r0 ≤ r + 1 ∧ r ≤ r0 + 7 ∧ c0 ≤ c + 1 ∧ c ≤ c0 + 7)) :
    finderAt r0 c0 r c = none :=
  if_neg h

theorem finderAt_span {r0 c0 r c : Nat} {b : Bit} (h : finderAt r0 c0 r c = some b) :
    r0 ≤ r + 1 ∧ r ≤ r0 + 7 ∧ c0 ≤ c + 1 ∧ c ≤ c0 + 7 :=
  isSome_finderAt_iff.mp (Option.isSome_of_eq_some h)

theorem draws_finder {n : Nat} (hn : 21 ≤ n) : Draws n (finderCells n) (finderPaint n) := by
  refine ⟨inGrid_finderCells n, fun r c b hr hc => ?_⟩
  simp only [finderCells, finderOrigins, List.mem_flatMap, List.mem_cons, List.not_mem_nil, or_false, exists_eq_or_imp,
    exists_eq_left, mem_finderCellsAt _ hr hc, finderPaint, Option.or_eq_some_iff, Option.or_eq_none_iff]
  constructor
  · rintro (h | h | h)
    · exact .inl (.inl h)
    · have hspan := finderAt_span h
      exact .inl (.inr ⟨finderAt_eq_none (by omega), h⟩)
    · have hspan := finderAt_span h
      exact .inr ⟨⟨finderAt_eq_none (by omega), finderAt_eq_none (by omega)⟩, h⟩
  · rintro ((h | ⟨_, h⟩) | ⟨_, h⟩)
    · exact .inl h
    · exact .inr (.inl h)
    · exact .inr (.inr h)

theorem draws_timing {n : Nat} (hn : 21 ≤ n) : Draws n (timingCells n) (timingPaint n) := by
  refine ⟨inGrid_timingCells hn, fun r c b _ _ => ?_⟩
  simp only [timingCells, List.mem_flatMap, List.mem_range'_1, List.mem_cons, List.not_mem_nil, or_false, Prod.mk.injEq,
    timingPaint, timingBit]
  constructor
  · rintro ⟨i, hi, ⟨⟨rfl, rfl⟩, rfl⟩ | ⟨⟨rfl, rfl⟩, rfl⟩⟩
    · rw [if_pos (by omega)]
    · rw [if_neg (by omega), if_pos (by omega)]
  · intro h
    split at h
    · next hrow => exact ⟨c, by omega, .inl ⟨⟨hrow.1, rfl⟩, (Option.some.inj h).symm⟩⟩
    · split at h
      · next hcol => exact ⟨r, by omega, .inr ⟨⟨rfl, hcol.1⟩, (Option.some.inj h).symm⟩⟩
      · cases h

theorem draws_dark (v : Nat) : Draws (4 * v + 17) [(darkCell v, 1#1)] (darkPaint v) := by
  refine ⟨?_, fun r c b _ _ => ?_⟩
  · rintro x hx
    obtain rfl : x = (4 * v + 9, 8) := List.mem_singleton.mp hx
    exact ⟨by omega, by omega⟩
  · simp only [darkCell, darkPaint, List.mem_singleton, Prod.mk.injEq, Option.ite_none_right_eq_some, Option.some.injEq,
      eq_comm (a := b)]

/-- The cells of a position in the format information are that of the first run and that of the second (R193, R194). -/
theorem mem_formatCells {n k : Nat} {x : Cell} :
    (x, k) ∈ formatCells n ↔ fmt1[k]? = some x ∨ (fmt2 n)[k]? = some x := by
  have hlen : fmt1.length = (fmt2 n).length := by simp [fmt1, fmt2]
  simp only [formatCells, List.mem_flatMap, List.mem_cons, List.not_mem_nil, or_false, Prod.mk.injEq]
  constructor
  · rintro ⟨⟨⟨y, z⟩, i⟩, hmem, hx⟩
    obtain ⟨hy, hz⟩ := List.getElem?_zip_eq_some.mp (List.mem_zipIdx_iff_getElem?.mp hmem)
    rcases hx with ⟨rfl, rfl⟩ | ⟨rfl, rfl⟩
    · exact .inl hy
    · exact .inr hz
  · rintro (h | h)
    · obtain ⟨hk, _⟩ := List.getElem?_eq_some_iff.mp h
      have hother := List.getElem?_eq_getElem (hlen ▸ hk)
      exact ⟨((x, _), k), List.mem_zipIdx_iff_getElem?.mpr (List.getElem?_zip_eq_some.mpr ⟨h, hother⟩), .inl ⟨rfl, rfl⟩⟩
    · obtain ⟨hk, _⟩ := List.getElem?_eq_some_iff.mp h
      have hother := List.getElem?_eq_getElem (hlen.symm ▸ hk)
      exact ⟨((_, x), k), List.mem_zipIdx_iff_getElem?.mpr (List.getElem?_zip_eq_some.mpr ⟨hother, h⟩), .inr ⟨rfl, rfl⟩⟩

/-- Position `k` of the second run (R194): along row 8, then down column 8. -/
theorem getElem?_fmt2 (n k : Nat) :
    (fmt2 n)[k]? = if k < 8 then some (8, n - 1 - k) else if k < 15 then some (n + k - 15, 8) else none := by
  have hlen : ((List.range 8).map fun k => ((8, n - 1 - k) : Cell)).length = 8 := by simp
  rw [fmt2]
  by_cases hk : k < 8
  · rw [if_pos hk, List.getElem?_append_left (hlen ▸ hk), List.getElem?_map, List.getElem?_range hk, Option.map_some]
  · rw [if_neg hk, List.getElem?_append_right (hlen ▸ Nat.not_lt.mp hk), hlen, List.getElem?_map]
    by_cases hk' : k < 15
    · rw [if_pos hk', List.getElem?_range' (by omega), Option.map_some, Nat.one_mul,
        Nat.add_sub_cancel' (Nat.not_lt.mp hk)]
    · rw [if_neg hk', List.getElem?_eq_none (by rw [List.length_range']; omega), Option.map_none]

/-- The cells of both runs have their positions. -/
theorem formatPosition_of_mem {n k : Nat} {x : Cell} (hn : 21 ≤ n) (h : fmt1[k]? = some x ∨ (fmt2 n)[k]? = some x) :
    formatPosition n x.1 x.2 = some k := by
  have hfmt1 : ∀ p ∈ fmt1.zipIdx, formatPosition n p.1.1 p.1.2 = some p.2 := by simp [fmt1, formatPosition]
  rcases h with h | h
  · exact hfmt1 (x, k) (List.mem_zipIdx_iff_getElem?.mpr h)
  · rw [getElem?_fmt2] at h
    split at h
    · obtain rfl := Option.some.inj h
      rw [formatPosition, if_neg (by omega), if_neg (by omega), if_neg (by omega), if_neg (by omega), if_neg (by omega),
        if_pos (by omega)]
      exact congrArg some (by omega)
    · obtain ⟨hk, h⟩ := Option.ite_none_right_eq_some.mp h
      obtain rfl := Option.some.inj h
      rw [formatPosition, if_neg (by omega), if_neg (by omega), if_neg (by omega), if_neg (by omega), if_neg (by omega),
        if_neg (by omega), if_pos (by omega)]
      exact congrArg some (by omega)

/-- Every cell with a position is a cell of one of the runs. -/
theorem mem_of_formatPosition {n r c k : Nat} (hr : r < n) (hc : c < n) (h : formatPosition n r c = some k) :
    fmt1[k]? = some (r, c) ∨ (fmt2 n)[k]? = some (r, c) := by
  have hdown : ∀ r ≤ 5, fmt1[r]? = some (r, 8) := by decide
  have halong : ∀ c ≤ 5, fmt1[14 - c]? = some (8, c) := by decide
  unfold formatPosition at h
  split_ifs at h with h₁ h₂ h₃ h₄ h₅ h₆ h₇
  all_goals obtain rfl := Option.some.inj h
  · exact .inl (h₁.1 ▸ hdown r h₁.2)
  · exact .inl (by rw [h₂.1, h₂.2]; rfl)
  · exact .inl (by rw [h₃.1, h₃.2]; rfl)
  · exact .inl (by rw [h₄.1, h₄.2]; rfl)
  · exact .inl (h₅.1 ▸ halong c h₅.2)
  · rw [getElem?_fmt2, if_pos (by omega), h₆.1, show n - 1 - (n - 1 - c) = c by omega]
    exact .inr rfl
  · rw [getElem?_fmt2, if_neg (by omega), if_pos (by omega), h₇.1, show n + (r + 15 - n) - 15 = r by omega]
    exact .inr rfl

theorem draws_format {n : Nat} (hn : 21 ≤ n) : Draws n (formatCells n) (formatPosition n) :=
  ⟨inGrid_formatCells hn, fun _ _ _ hr hc =>
    mem_formatCells.trans ⟨formatPosition_of_mem hn, mem_of_formatPosition hr hc⟩⟩

theorem draws_version {n : Nat} (hn : 21 ≤ n) : Draws n (versionCells n) (versionPosition n) := by
  refine ⟨inGrid_versionCells hn, fun r c i hr hc => ?_⟩
  simp only [versionCells, List.mem_flatMap, List.mem_range, List.mem_cons, List.not_mem_nil, or_false, Prod.mk.injEq,
    versionPosition]
  constructor
  · rintro ⟨i, hi, ⟨⟨rfl, rfl⟩, rfl⟩ | ⟨⟨rfl, rfl⟩, rfl⟩⟩
    · rw [if_pos (by omega)]
      exact congrArg some (by omega)
    · rw [if_neg (by omega), if_pos (by omega)]
      exact congrArg some (by omega)
  · intro h
    split at h
    · obtain rfl := Option.some.inj h
      exact ⟨_, by omega, .inl ⟨⟨by omega, by omega⟩, rfl⟩⟩
    · split at h
      · obtain rfl := Option.some.inj h
        exact ⟨_, by omega, .inr ⟨⟨by omega, by omega⟩, rfl⟩⟩
      · cases h

end Sys2Proof.Machine
end

section
/-! PROOFS. `MCLR`, `PFIND`, `PTIME`, `PDARK`, `RFMT`, `RVER` (R181 to R197): each writes its cells and no other, and no
command but `CLR`, `MCLR` and `ENCODE` takes a flag away (R180). -/

namespace Sys2Proof.Machine

open Sys2Proof.Config Sys2Proof.Claims

/-! ## The registers of a symbol -/

theorem sizedFor_le {s : State} {v : Nat} (h : SizedFor s v) : 21 ≤ 4 * v + 17 ∧ 4 * v + 17 ≤ 64 := by
  obtain ⟨hlow, hhigh, _⟩ := h
  omega

theorem version_mem_of_sizedFor {s : State} {v : Nat} (h : SizedFor s v) : v ∈ List.range' 1 10 := by
  obtain ⟨hlow, hhigh, _⟩ := h
  exact List.mem_range'_1.mpr ⟨hlow, by omega⟩

theorem verN_of_sizedFor {s : State} {v : Nat} (h : SizedFor s v) : s.verN = v := by
  obtain ⟨_, hhigh, hver, _⟩ := h
  exact s.operand_toNat .ver hver (by omega)

theorem sizeN_of_sizedFor {s : State} {v : Nat} (h : SizedFor s v) : s.sizeN = 4 * v + 17 := by
  obtain ⟨_, hhigh, _, hsize⟩ := h
  exact s.operand_toNat .size hsize (by omega)

/-! ## The commands -/

/-- Settles O30: what stood in the grids is discarded, and `SIZE` of 6 bits keeps the cells within the depth. -/
theorem mclrBlanksBothGrids : Obligations.MclrBlanksBothGrids := by
  unfold Obligations.MclrBlanksBothGrids
  intro s n hs hn hsize
  have hsizeN : s.sizeN = n := s.operand_toNat .size hsize hn
  have hcells : n * n ≤ gridDepth := Nat.mul_le_mul hn.le hn.le
  have hblank : ∀ m : Memory 1, blankGrid n m = Memory.number 0 (List.replicate (n * n) 0#1) := fun m => by
    rw [blankGrid, Memory.rewritten_eq_number m List.length_replicate.ge hcells, List.take_replicate, Nat.min_self]
  have hbody : mclrBody s = .ok ((s.setVal (Memory.number 0 (List.replicate (n * n) 0#1))).setRsv
      (Memory.number 0 (List.replicate (n * n) 0#1))) := by
    rw [mclrBody, hsizeN, hblank, hblank]
  exact congrArg Host.Outcome.next (s.pipeline_ok 6#5 mclrBody _ (by decide) hs hbody)

/-- A command that writes and reserves exactly the cells of a pattern (R180) completes. -/
theorem pipeline_stampReserved {s : State} {v : Nat} {k : BitVec 5} {body : State → Except Fault State}
    {cells : List (Cell × Bit)} {f : Nat → Nat → Option Bit} (hs : s.stage = k) (hsized : SizedFor s v)
    (hdraws : Draws (4 * v + 17) cells f) (hbody : body s = .ok (s.stampReserved cells))
    (hk : k ≠ stageErr := by decide) :
    ∃ t, Host.Outcome.next (φ := Fault) (ρ := Refusal) (s.pipeline k body) = .next t ∧
      t = { s with stage := k + 1#5, val := t.val, rsv := t.rsv } ∧
      Painted (4 * v + 17) s.val t.val f ∧ Painted (4 * v + 17) s.rsv t.rsv (flagged f) := by
  obtain ⟨_, hdepth⟩ := sizedFor_le hsized
  rw [s.pipeline_ok k body _ hk hs hbody]
  refine ⟨_, rfl, rfl, ?_, ?_⟩
  · change Painted _ _ (stamp s.sizeN s.val cells) f
    rw [sizeN_of_sizedFor hsized]
    exact hdraws.painted hdepth s.val
  · change Painted _ _ (flag s.sizeN s.rsv (cells.map Prod.fst)) (flagged f)
    rw [sizeN_of_sizedFor hsized]
    exact hdraws.painted_flag hdepth s.rsv

/-- Settles O31. -/
theorem pfindDrawsFinders : Obligations.PfindDrawsFinders := fun s v hs hsized =>
  pipeline_stampReserved hs hsized (draws_finder (sizedFor_le hsized).1) (by rw [pfindBody, sizeN_of_sizedFor hsized])

/-- Settles O32. -/
theorem ptimeDrawsTiming : Obligations.PtimeDrawsTiming := fun s v hs hsized =>
  pipeline_stampReserved hs hsized (draws_timing (sizedFor_le hsized).1) (by rw [ptimeBody, sizeN_of_sizedFor hsized])

/-- Settles O33. -/
theorem pdarkDrawsDarkModule : Obligations.PdarkDrawsDarkModule := fun s v hs hsized =>
  pipeline_stampReserved hs hsized (draws_dark v) (by rw [pdarkBody, verN_of_sizedFor hsized])

/-- A command that only reserves cells completes. -/
theorem pipeline_flag {s : State} {v : Nat} {k : BitVec 5} {body : State → Except Fault State} {α : Type}
    {cells : List (Cell × α)} {f : Nat → Nat → Option α} (hs : s.stage = k) (hsized : SizedFor s v)
    (hdraws : Draws (4 * v + 17) cells f)
    (hbody : body s = .ok (s.setRsv (flag (4 * v + 17) s.rsv (cells.map Prod.fst))))
    (hk : k ≠ stageErr := by decide) :
    ∃ t, Host.Outcome.next (φ := Fault) (ρ := Refusal) (s.pipeline k body) = .next t ∧
      t = { s with stage := k + 1#5, rsv := t.rsv } ∧
      Painted (4 * v + 17) s.rsv t.rsv (fun r c => (f r c).map fun _ => 1#1) := by
  rw [s.pipeline_ok k body _ hk hs hbody]
  exact ⟨_, rfl, rfl, hdraws.painted_flag (sizedFor_le hsized).2 s.rsv⟩

/-- Settles O36: the cells with a position are flagged, whatever bit will stand there. -/
theorem rfmtReservesFormatRuns : Obligations.RfmtReservesFormatRuns := by
  unfold Obligations.RfmtReservesFormatRuns
  intro s v hs hsized
  have hflagged : flagged (formatPaint (4 * v + 17)) =
      fun r c => (formatPosition (4 * v + 17) r c).map fun _ => 1#1 := by
    funext r c
    exact Option.map_map ..
  rw [hflagged]
  exact pipeline_flag hs hsized (draws_format (sizedFor_le hsized).1) (by rw [rfmtBody, sizeN_of_sizedFor hsized])

theorem painted_of_none {n : Nat} {m : Memory 1} {f : Nat → Nat → Option Bit} (h : ∀ r c, f r c = none) :
    Painted n m m f :=
  ⟨fun r c _ _ => by rw [h r c, Option.none_or], fun _ _ => rfl⟩

/-- Settles O37: below version 7 the body leaves the state as it is, as the paint leaves the grid. -/
theorem rverReservesVersionBlocks : Obligations.RverReservesVersionBlocks := by
  unfold Obligations.RverReservesVersionBlocks
  intro s v hs hsized
  have hver := verN_of_sizedFor hsized
  by_cases h7 : 7 ≤ v
  · have hflagged : flagged (versionPaint v) = fun r c => (versionPosition (4 * v + 17) r c).map fun _ => 1#1 := by
      funext r c
      rw [flagged, versionPaint, if_pos h7]
      exact Option.map_map ..
    rw [hflagged]
    refine pipeline_flag hs hsized (draws_version (sizedFor_le hsized).1) ?_
    rw [rverBody, hver, if_pos h7, sizeN_of_sizedFor hsized]
  · have hbody : rverBody s = .ok s := by rw [rverBody, hver, if_neg h7]
    refine ⟨_, congrArg Host.Outcome.next (s.pipeline_ok 12#5 rverBody _ (by decide) hs hbody), rfl, ?_⟩
    exact painted_of_none fun r c => by rw [flagged, versionPaint, if_neg h7, Option.map_none]

/-! ## A reserved cell stays reserved -/

theorem read_flag_of_one {n k : Nat} {m : Memory 1} {cells : List Cell} (h : m.read k = some 1#1) :
    (flag n m cells).read k = some 1#1 := by
  induction cells generalizing m with
  | nil => exact h
  | cons x cells ih =>
    refine ih (m := m.write gridDepth (cellIndex n x) 1#1) ?_
    rw [Memory.read_write]
    split
    · rfl
    · exact h

/-- No pattern command clears a flag: each sets flags and leaves the others alone. -/
theorem read_rsv_pattern {i : Instr} {s : State} {k : Nat}
    (hi : i ∈ [Instr.pfind, .ptime, .pdark, .palign, .rfmt, .rver]) (hs : (commandResult i s).stage ≠ stageErr)
    (hk : s.rsv.read k = some 1#1) : (commandResult i s).rsv.read k = some 1#1 := by
  simp only [List.mem_cons, List.not_mem_nil, or_false] at hi
  rcases hi with rfl | rfl | rfl | rfl | rfl | rfl
  all_goals
    obtain ⟨u, hu, e⟩ := State.pipeline_of_ne_err hs
    refine (congrArg (fun t : State => t.rsv.read k) e).trans ?_
  · exact Except.ok.inj hu ▸ read_flag_of_one hk
  · exact Except.ok.inj hu ▸ read_flag_of_one hk
  · exact Except.ok.inj hu ▸ read_flag_of_one hk
  · obtain rfl := Except.ok.inj hu
    refine List.foldlRecOn (motive := fun t : State => t.rsv.read k = some 1#1) s.alignmentCentres _ hk
      fun t ht x _ => ?_
    unfold State.alignAt
    split
    · exact ht
    · exact read_flag_of_one ht
  · exact Except.ok.inj hu ▸ read_flag_of_one hk
  · unfold rverBody at hu
    split at hu
    · exact Except.ok.inj hu ▸ read_flag_of_one hk
    · exact Except.ok.inj hu ▸ hk

/-- Settles O53: of the other commands the frame says that `RSV` is unchanged. -/
theorem reservationIsPermanent : Obligations.ReservationIsPermanent := by
  unfold Obligations.ReservationIsPermanent
  intro i s t k hi e hs hk
  simp only [List.mem_cons, List.not_mem_nil, or_false, not_or] at hi
  obtain ⟨hclr, hmclr, hencode⟩ := hi
  by_cases hp : i ∈ [Instr.pfind, .ptime, .pdark, .palign, .rfmt, .rver]
  · rw [exec_eq_commandResult] at e
    obtain rfl := Host.Outcome.next.inj e
    exact read_rsv_pattern hp hs hk
  · obtain ⟨_, hkeep⟩ := commandsWriteOnlyTheirRegisters i s t e
    obtain ⟨_, _, _, _, _, _, _, _, _, _, _, hrsv⟩ := hkeep hs hclr
    rw [hrsv (by simpa [hmclr, hencode] using hp)]
    exact hk

end Sys2Proof.Machine
end

section
/-! PROOFS. `PALIGN` (R189 to R191): the centres that are not reserved when the command starts are those that are
stamped, since no pattern reaches another candidate centre. -/

namespace Sys2Proof.Machine

open Sys2Proof.Config Sys2Proof.Claims

/-! ## One alignment pattern -/

/-- The cells around a centre, and the values of the rings (R189). -/
theorem mem_alignmentCells {x y : Cell} {b : Bit} (hr : 2 ≤ x.1) (hc : 2 ≤ x.2) :
    (y, b) ∈ alignmentCells x ↔ chebyshev x y ≤ 2 ∧ (if chebyshev x y = 1 then 0#1 else 1#1) = b := by
  have hbit : ∀ i j, y = (x.1 + i - 2, x.2 + j - 2) →
      alignmentBit i j = if chebyshev x y = 1 then 0#1 else 1#1 := by
    rintro i j rfl
    refine if_congr ?_ rfl rfl
    simp only [distance, chebyshev]
    omega
  simp only [alignmentCells, List.mem_flatMap, List.mem_map, List.mem_range, Prod.mk.injEq]
  constructor
  · rintro ⟨i, hi, j, hj, rfl, rfl⟩
    refine ⟨?_, (hbit i j rfl).symm⟩
    simp only [chebyshev]
    omega
  · rintro ⟨hnear, rfl⟩
    simp only [chebyshev] at hnear
    have hcell : y = (x.1 + (y.1 + 2 - x.1) - 2, x.2 + (y.2 + 2 - x.2) - 2) := Prod.ext (by omega) (by omega)
    exact ⟨y.1 + 2 - x.1, by omega, y.2 + 2 - x.2, by omega, hcell.symm, hbit _ _ hcell⟩

/-! ## The stamped centres -/

theorem versionCentres_ge : ∀ v ∈ List.range' 1 10, ∀ x ∈ versionCentres v, 2 ≤ x.1 ∧ 2 ≤ x.2 := by decide

/-- No candidate centre of R190 lies in the pattern of another. -/
theorem versionCentres_far : ∀ v ∈ List.range' 1 10, (versionCentres v).Pairwise fun x y => 2 < chebyshev x y := by
  decide

theorem versionCentres_coordinates :
    ∀ v ∈ List.range' 1 10, ∀ x ∈ versionCentres v, x.1 ∈ coordinates v ∧ x.2 ∈ coordinates v := by
  decide

/-- R190's table: the candidates outside row and column 6. -/
theorem versionCentres_filter : ∀ v ∈ List.range' 1 10,
    (versionCentres v).filter (fun x => decide ¬ (x.1 = 6 ∨ x.2 = 6)) = stampedCentres v := by
  decide

theorem stampedCentres_inner : ∀ v ∈ List.range' 1 10, ∀ x ∈ stampedCentres v,
    18 ≤ x.1 ∧ 18 ≤ x.2 ∧ x.1 + 2 < 4 * v + 17 ∧ x.2 + 2 < 4 * v + 17 := by
  decide

/-- The stamped patterns do not overlap. -/
theorem stampedCentres_far :
    ∀ v ∈ List.range' 1 10, ∀ x ∈ stampedCentres v, ∀ y ∈ stampedCentres v, x = y ∨ 4 < chebyshev x y := by
  decide

/-- Two centres with a cell in both patterns are one. -/
theorem stampedCentres_eq {v : Nat} (hv : v ∈ List.range' 1 10) {x y z : Cell} (hx : x ∈ stampedCentres v)
    (hy : y ∈ stampedCentres v) (hxz : chebyshev x z ≤ 2) (hyz : chebyshev y z ≤ 2) : x = y := by
  refine (stampedCentres_far v hv x hx y hy).resolve_right ?_
  simp only [chebyshev] at hxz hyz ⊢
  omega

theorem draws_alignment {v : Nat} (hv : v ∈ List.range' 1 10) :
    Draws (4 * v + 17) ((stampedCentres v).flatMap alignmentCells) (alignmentPaint v) := by
  have hinner := stampedCentres_inner v hv
  refine ⟨?_, fun r c b _ _ => ?_⟩
  · intro y hy
    rw [List.map_flatMap] at hy
    obtain ⟨x, hx, hy⟩ := List.mem_flatMap.mp hy
    obtain ⟨_, _, hr, hc⟩ := hinner x hx
    exact inGrid_alignmentCells hr hc y hy
  · simp only [alignmentPaint, List.mem_flatMap, Option.map_eq_some_iff]
    refine exists_congr fun x => ?_
    constructor
    · rintro ⟨hx, hmem⟩
      obtain ⟨hr, hc, _⟩ := hinner x hx
      obtain ⟨hnear, hb⟩ := (mem_alignmentCells (by omega) (by omega)).mp hmem
      refine ⟨?_, hb⟩
      cases hfind : (stampedCentres v).find? fun x => decide (chebyshev x (r, c) ≤ 2) with
      | none => exact absurd (decide_eq_true hnear) (List.find?_eq_none.mp hfind x hx)
      | some y =>
        have hy := List.find?_some hfind
        rw [stampedCentres_eq hv hx (List.mem_of_find?_eq_some hfind) hnear (of_decide_eq_true hy)]
    · rintro ⟨hfind, hb⟩
      have hx := List.mem_of_find?_eq_some hfind
      have hnear := List.find?_some hfind
      obtain ⟨hr, hc, _⟩ := hinner x hx
      exact ⟨hx, (mem_alignmentCells (by omega) (by omega)).mpr ⟨of_decide_eq_true hnear, hb⟩⟩

/-! ## The command -/

theorem stamp_append (n : Nat) (m : Memory 1) (cells rest : List (Cell × Bit)) :
    stamp n m (cells ++ rest) = stamp n (stamp n m cells) rest :=
  List.foldl_append

theorem flag_append (n : Nat) (m : Memory 1) (cells rest : List Cell) :
    flag n m (cells ++ rest) = flag n (flag n m cells) rest := by
  rw [flag, List.map_append, stamp_append]
  rfl

theorem State.stampReserved_append (s : State) (cells rest : List (Cell × Bit)) :
    s.stampReserved (cells ++ rest) = (s.stampReserved cells).stampReserved rest := by
  rw [State.stampReserved, stamp_append, List.map_append, flag_append]
  rfl

/-- A flag that no cell names keeps its content. -/
theorem read_flag_other {n k : Nat} {m : Memory 1} {cells : List Cell} (h : ∀ x ∈ cells, cellIndex n x ≠ k) :
    (flag n m cells).read k = m.read k := by
  refine read_stamp_other n m _ k fun d hd => ?_
  obtain ⟨x, hx, rfl⟩ := List.mem_map.mp hd
  exact h x hx

/-- A pattern does not touch the flag of a cell more than two cells away from its centre. -/
theorem rsvAt_stampReserved_far {s : State} {x y : Cell} (hr : 2 ≤ x.1) (hc : 2 ≤ x.2) (hx : x.2 + 2 < s.sizeN)
    (hy : y.2 < s.sizeN) (hfar : 2 < chebyshev x y) :
    (s.stampReserved (alignmentCells x)).rsvAt s.sizeN y.1 y.2 = s.rsvAt s.sizeN y.1 y.2 := by
  refine congrArg (s.element .rsv (cellIndex s.sizeN y)) (read_flag_other fun _ hz e => ?_)
  obtain ⟨⟨z, b⟩, hmem, rfl⟩ := List.mem_map.mp hz
  obtain ⟨hnear, _⟩ := (mem_alignmentCells hr hc).mp hmem
  have hcol : z.2 < s.sizeN := by
    simp only [chebyshev] at hnear
    omega
  exact absurd (cellIndex_inj hcol hy e ▸ hnear) (Nat.not_le.mpr hfar)

/-- Of candidate centres far from each other, the patterns stamped are those around the centres that are not reserved at
the start. -/
theorem foldl_alignAt_eq {s : State} {xs : List Cell}
    (hin : ∀ x ∈ xs, 2 ≤ x.1 ∧ 2 ≤ x.2 ∧ x.2 + 2 < s.sizeN)
    (hfar : xs.Pairwise fun x y => 2 < chebyshev x y) :
    xs.foldl State.alignAt s =
      s.stampReserved ((xs.filter fun x => s.rsvAt s.sizeN x.1 x.2 != 1#1).flatMap alignmentCells) := by
  induction xs generalizing s with
  | nil => rfl
  | cons x xs ih =>
    obtain ⟨hx, hin'⟩ := List.forall_mem_cons.mp hin
    obtain ⟨hxfar, hfar⟩ := List.pairwise_cons.mp hfar
    rw [List.foldl_cons, State.alignAt]
    by_cases hrsv : s.rsvAt s.sizeN x.1 x.2 = 1#1
    · rw [if_pos hrsv, ih hin' hfar, List.filter_cons_of_neg (by simp [hrsv])]
    · have hsame : xs.filter (fun y => (s.stampReserved (alignmentCells x)).rsvAt s.sizeN y.1 y.2 != 1#1) =
          xs.filter fun y => s.rsvAt s.sizeN y.1 y.2 != 1#1 := by
        refine List.filter_congr fun y hy => ?_
        obtain ⟨hr, hc, hmargin⟩ := hx
        obtain ⟨_, _, hy'⟩ := hin' y hy
        rw [rsvAt_stampReserved_far hr hc hmargin (by omega) (hxfar y hy)]
      rw [if_neg hrsv, ih (s := s.stampReserved (alignmentCells x)) hin' hfar, List.filter_cons_of_pos (by simp [hrsv]),
        List.flatMap_cons, State.stampReserved_append]
      exact congrArg (fun ys => State.stampReserved _ (List.flatMap alignmentCells ys)) hsame

/-- `PALIGN` stamps the candidates that are not reserved at the start. -/
theorem palignBody_eq {s : State} {v : Nat} (hsized : SizedFor s v) :
    palignBody s = .ok (s.stampReserved
      (((versionCentres v).filter fun x => s.rsvAt (4 * v + 17) x.1 x.2 != 1#1).flatMap alignmentCells)) := by
  have hv := version_mem_of_sizedFor hsized
  have hver := verN_of_sizedFor hsized
  have hsize := sizeN_of_sizedFor hsized
  have hin : ∀ x ∈ versionCentres v, 2 ≤ x.1 ∧ 2 ≤ x.2 ∧ x.2 + 2 < s.sizeN := fun x hx =>
    ⟨(versionCentres_ge v hv x hx).1, (versionCentres_ge v hv x hx).2, hsize ▸ (versionCentres_margin v hv x hx).2⟩
  rw [palignBody, s.alignmentCentres_eq (hver.symm ▸ hv), hver, foldl_alignAt_eq hin (versionCentres_far v hv), hsize]

theorem State.rsvAt_of_read {s : State} {n r c : Nat} {b : Bit} (h : s.rsv.read (r * n + c) = some b) :
    s.rsvAt n r c = b := by
  rw [State.rsvAt, h]
  rfl

/-- Settles O34: outside row and column 6 the candidates are those of R190's table. -/
theorem palignStampsFreeCentres : Obligations.PalignStampsFreeCentres := by
  unfold Obligations.PalignStampsFreeCentres
  intro s v hs hsized hrsv
  have hv := version_mem_of_sizedFor hsized
  have hfree : (versionCentres v).filter (fun x => s.rsvAt (4 * v + 17) x.1 x.2 != 1#1) = stampedCentres v := by
    rw [← versionCentres_filter v hv]
    refine List.filter_congr fun x hx => ?_
    obtain ⟨hr, hc⟩ := versionCentres_coordinates v hv x hx
    rw [State.rsvAt_of_read (hrsv x.1 hr x.2 hc)]
    by_cases h6 : x.1 = 6 ∨ x.2 = 6
    · simp [h6]
    · simp [h6]
  exact pipeline_stampReserved hs hsized (draws_alignment hv) (hfree ▸ palignBody_eq hsized)

/-- Settles O35: no candidate is left to stamp. -/
theorem palignSkipsReservedCentres : Obligations.PalignSkipsReservedCentres := by
  unfold Obligations.PalignSkipsReservedCentres
  intro s v hs hsized hrsv
  have hnone : (versionCentres v).filter (fun x => s.rsvAt (4 * v + 17) x.1 x.2 != 1#1) = [] := by
    refine List.filter_eq_nil_iff.mpr fun x hx => ?_
    obtain ⟨hr, hc⟩ := versionCentres_coordinates v (version_mem_of_sizedFor hsized) x hx
    simp [State.rsvAt_of_read (hrsv x.1 hr x.2 hc)]
  have hbody : palignBody s = .ok s := by
    rw [palignBody_eq hsized, hnone]
    rfl
  exact congrArg Host.Outcome.next (s.pipeline_ok 10#5 palignBody _ (by decide) hs hbody)

end Sys2Proof.Machine
end

section
/-! PROOFS. The fixed patterns of a finished symbol (R182 to R197, R231, R233): no two of them share a cell, and command by
command the reserved cells are those of the patterns drawn so far. -/

namespace Sys2Proof.Machine

open Sys2Proof.Config Sys2Proof.Claims

/-! ## The cells that a pattern covers -/

/-- Within the grid, the three 8 by 8 corners of the finder patterns and their separators (R182, R183). -/
def finderRegion (n r c : Nat) : Bool := (r ≤ 7 || n ≤ r + 8) && (c ≤ 7 || n ≤ c + 8) && (r ≤ 7 || c ≤ 7)

/-- R185. -/
def timingRegion (n r c : Nat) : Bool := (r == 6 && 8 ≤ c && c + 9 ≤ n) || (c == 6 && 8 ≤ r && r + 9 ≤ n)

/-- R187. -/
def darkRegion (n r c : Nat) : Bool := r + 8 == n && c == 8

/-- R189, R190: the rows that the stamped patterns span, and the same ranges as columns. -/
def alignmentRegion (v r c : Nat) : Bool :=
  ((coordinates v).tail.any fun a => a ≤ r + 2 && r ≤ a + 2) && (coordinates v).tail.any fun a => a ≤ c + 2 && c ≤ a + 2

/-- R193, R194. -/
def formatRegion (n r c : Nat) : Bool :=
  (c == 8 && (r ≤ 8 && r != 6 || n ≤ r + 7)) || (r == 8 && (c ≤ 8 && c != 6 || n ≤ c + 8))

/-- R196. -/
def versionRegion (v r c : Nat) : Bool :=
  7 ≤ v && (r ≤ 5 && 4 * v + 6 ≤ c && c ≤ 4 * v + 8 || c ≤ 5 && 4 * v + 6 ≤ r && r ≤ 4 * v + 8)

section
variable {n v r c : Nat}

theorem isSome_ite_some_iff {α : Type} {p : Prop} [Decidable p] {a : α} {o : Option α} :
    (if p then some a else o).isSome = true ↔ p ∨ o.isSome = true := by
  split
  · next h => simp [h]
  · next h => simp [h]

theorem isSome_finderPaint (hn : 21 ≤ n) (hr : r < n) (hc : c < n) :
    (finderPaint n r c).isSome = finderRegion n r c := by
  rw [Bool.eq_iff_iff]
  simp only [finderPaint, Option.isSome_or, isSome_finderAt_iff, finderRegion, Bool.or_eq_true, Bool.and_eq_true,
    decide_eq_true_eq]
  omega

theorem isSome_timingPaint : (timingPaint n r c).isSome = timingRegion n r c := by
  rw [Bool.eq_iff_iff]
  simp only [timingPaint, isSome_ite_some_iff, Option.isSome_none, Bool.false_eq_true, or_false, timingRegion,
    Bool.or_eq_true, Bool.and_eq_true, decide_eq_true_eq, beq_iff_eq, and_assoc]

theorem isSome_darkPaint : (darkPaint v r c).isSome = darkRegion (4 * v + 17) r c := by
  rw [Bool.eq_iff_iff]
  simp only [darkPaint, Option.isSome_ite, darkRegion, Bool.and_eq_true, beq_iff_eq]
  omega

theorem mem_stampedCentres_iff (hv : v ∈ List.range' 1 10) {x : Cell} :
    x ∈ stampedCentres v ↔ x.1 ∈ (coordinates v).tail ∧ x.2 ∈ (coordinates v).tail := by
  have hproduct : ∀ v ∈ List.range' 1 10, stampedCentres v = (coordinates v).tail ×ˢ (coordinates v).tail := by decide
  rw [hproduct v hv]
  exact List.mem_product

theorem isSome_alignmentPaint (hv : v ∈ List.range' 1 10) : (alignmentPaint v r c).isSome = alignmentRegion v r c := by
  have hnear : ∀ a b, chebyshev (a, b) (r, c) ≤ 2 ↔ (a ≤ r + 2 ∧ r ≤ a + 2) ∧ (b ≤ c + 2 ∧ c ≤ b + 2) := by
    intro a b
    simp only [chebyshev]
    omega
  rw [Bool.eq_iff_iff]
  simp only [alignmentPaint, Option.isSome_map, List.find?_isSome, decide_eq_true_eq, Prod.exists, hnear,
    mem_stampedCentres_iff hv, alignmentRegion, Bool.and_eq_true, List.any_eq_true]
  constructor
  · rintro ⟨a, b, ⟨ha, hb⟩, hr, hc⟩
    exact ⟨⟨a, ha, hr⟩, b, hb, hc⟩
  · rintro ⟨⟨a, ha, hr⟩, b, hb, hc⟩
    exact ⟨a, b, ⟨ha, hb⟩, hr, hc⟩

/-- The alignment patterns lie below and right of everything that starts at the upper and left edges. -/
theorem alignmentRegion_ge (hv : v ∈ List.range' 1 10) (h : alignmentRegion v r c = true) : 16 ≤ r ∧ 16 ≤ c := by
  have hinner : ∀ v ∈ List.range' 1 10, ∀ a ∈ (coordinates v).tail, 18 ≤ a := by decide
  simp only [alignmentRegion, Bool.and_eq_true, List.any_eq_true, decide_eq_true_eq] at h
  obtain ⟨⟨a, ha, hr, _⟩, b, hb, hc, _⟩ := h
  have hra := hinner v hv a ha
  have hcb := hinner v hv b hb
  omega

theorem isSome_formatPaint (hn : 21 ≤ n) (hc : c < n) : (formatPaint n r c).isSome = formatRegion n r c := by
  rw [Bool.eq_iff_iff]
  simp only [formatPaint, Option.isSome_map, formatPosition, isSome_ite_some_iff, Option.isSome_none,
    Bool.false_eq_true, or_false, formatRegion, Bool.or_eq_true, Bool.and_eq_true, decide_eq_true_eq, beq_iff_eq, bne_iff_ne]
  omega

theorem isSome_versionPaint : (versionPaint v r c).isSome = versionRegion v r c := by
  rw [Bool.eq_iff_iff, versionPaint]
  split
  · next h =>
    simp only [Option.isSome_map, versionPosition, isSome_ite_some_iff, Option.isSome_none, Bool.false_eq_true,
      or_false, versionRegion, Bool.or_eq_true, Bool.and_eq_true, decide_eq_true_eq]
    omega
  · next h => simp [versionRegion, h]

end

/-! ## No two patterns share a cell -/

/-- The values that a pattern gives to cells of version `v`. -/
abbrev Pattern : Type := Nat → Nat → Nat → Option Bit

/-- The patterns that `fixedPaint` combines, the one reserved last first. -/
def patterns : List Pattern :=
  [versionPaint, fun v => formatPaint (4 * v + 17), alignmentPaint, darkPaint, fun v => timingPaint (4 * v + 17),
    fun v => finderPaint (4 * v + 17)]

/-- No cell of version `v` belongs to both patterns. -/
def Apart (v : Nat) (p q : Pattern) : Prop :=
  ∀ r c, r < 4 * v + 17 → c < 4 * v + 17 → (p v r c).isSome = true → ¬ (q v r c).isSome = true

theorem patterns_apart {v : Nat} (hv : v ∈ List.range' 1 10) : patterns.Pairwise (Apart v) := by
  obtain ⟨hlow, hhigh⟩ := List.mem_range'_1.mp hv
  have hn : 21 ≤ 4 * v + 17 := by omega
  have halign : ∀ {r c}, (alignmentPaint v r c).isSome = true → 16 ≤ r ∧ 16 ≤ c := fun h =>
    alignmentRegion_ge hv (isSome_alignmentPaint hv ▸ h)
  simp only [patterns, List.pairwise_cons, List.mem_cons, List.not_mem_nil, or_false, forall_eq_or_imp, forall_eq,
    List.Pairwise.nil, and_true, IsEmpty.forall_iff, implies_true]
  refine ⟨⟨?_, ?versionAlignment, ?_, ?_, ?_⟩, ⟨?formatAlignment, ?_, ?_, ?_⟩,
    ⟨?alignmentDark, ?alignmentTiming, ?alignmentFinder⟩, ⟨?_, ?_⟩, ?_⟩
  all_goals
    intro r c hr hc hp hq
    simp only [isSome_finderPaint hn hr hc, isSome_timingPaint, isSome_darkPaint, isSome_formatPaint hn hc,
      isSome_versionPaint, finderRegion, timingRegion, darkRegion, formatRegion, versionRegion, Bool.or_eq_true,
      Bool.and_eq_true, decide_eq_true_eq, beq_iff_eq, bne_iff_ne] at hp hq
  case versionAlignment | formatAlignment =>
    have hinner := halign hq
    omega
  case alignmentDark | alignmentTiming | alignmentFinder =>
    have hinner := halign hp
    omega
  all_goals omega

/-- A pattern lies apart from those drawn before it. -/
theorem patterns_apart_of_suffix {v : Nat} {p : Pattern} {ps : List Pattern} (hv : v ∈ List.range' 1 10)
    (h : p :: ps <:+ patterns) : ∀ q ∈ ps, Apart v p q :=
  (List.pairwise_cons.mp ((patterns_apart hv).sublist h.sublist)).1

/-! ## The grids while the patterns are drawn -/

/-- The reserved cells are those of the patterns `ps`. -/
def Reserves (v : Nat) (ps : List Pattern) (m : Memory 1) : Prop :=
  ∀ r c, r < 4 * v + 17 → c < 4 * v + 17 →
    m.read (r * (4 * v + 17) + c) = some (BitVec.ofBool (ps.any fun p => (p v r c).isSome))

/-- The cells of the patterns `ps` show their values. -/
def Shows (v : Nat) (ps : List Pattern) (m : Memory 1) : Prop :=
  ∀ p ∈ ps, ∀ r c b, r < 4 * v + 17 → c < 4 * v + 17 → p v r c = some b → m.read (r * (4 * v + 17) + c) = some b

section
variable {v : Nat} {ps : List Pattern} {p : Pattern} {m m' : Memory 1}

theorem Reserves.cons (h : Reserves v ps m) (hp : Painted (4 * v + 17) m m' (flagged (p v))) :
    Reserves v (p :: ps) m' := by
  intro r c hr hc
  rw [hp.1 r c hr hc, h r c hr hc, List.any_cons, flagged]
  cases p v r c with
  | none => rfl
  | some b => rfl

theorem Shows.cons (h : Shows v ps m) (hp : Painted (4 * v + 17) m m' (p v)) (hapart : ∀ q ∈ ps, Apart v p q) :
    Shows v (p :: ps) m' := by
  intro q hq r c b hr hc hb
  rw [hp.1 r c hr hc]
  rcases List.mem_cons.mp hq with rfl | hq
  · rw [hb, Option.some_or]
  · have hnone : p v r c = none :=
      Option.not_isSome_iff_eq_none.mp fun hs => hapart q hq r c hr hc hs (by rw [hb, Option.isSome_some])
    rw [hnone, Option.none_or, h q hq r c b hr hc hb]

/-- A grid that keeps the reserved cells keeps the patterns on them. -/
theorem Shows.of_kept {rsv : Memory 1} {qs : List Pattern} (h : Shows v qs m) (hrsv : Reserves v ps rsv) (hqs : qs ⊆ ps)
    (hkept : ∀ k, rsv.read k = some 1#1 → m'.read k = m.read k) : Shows v qs m' := by
  intro q hq r c b hr hc hb
  have hany : (ps.any fun p => (p v r c).isSome) = true :=
    List.any_eq_true.mpr ⟨q, hqs hq, by rw [hb, Option.isSome_some]⟩
  rw [hkept _ (by rw [hrsv r c hr hc, hany]; rfl), h q hq r c b hr hc hb]

end

/-! ## Command by command -/

/-- From a state with `P`, the command leaves one with `Q` unless it faults. -/
def Leads (P : State → Prop) (f : State → State) (Q : State → Prop) : Prop :=
  ∀ s, P s → (f s).stage ≠ stageErr → Q (f s)

theorem Leads.chain_nil (P : State → Prop) : Leads P (fun s => runChain s []) P := fun _ h _ => h

theorem Leads.chain_cons {P Q R : State → Prop} {f : State → State} {fs : List (State → State)} (hf : Leads P f Q)
    (hfs : Leads Q (fun s => runChain s fs) R) : Leads P (fun s => runChain s (f :: fs)) R := by
  intro s hP hs
  simp only [runChain_cons] at hs ⊢
  have herr : ∀ t : State, t.stage = stageErr → (runChain t fs).stage = stageErr := fun t ht =>
    (congrArg State.stage (runChain_err t fs ht)).trans ht
  by_cases hstage : s.stage = stageErr
  · rw [if_pos hstage] at hs
    exact absurd (herr s hstage) hs
  · rw [if_neg hstage] at hs ⊢
    exact hfs _ (hf s hP fun h => hs (herr _ h)) hs

/-- A state of stage `k` with the registers of a version, and `P` of the version and the state. -/
def InStage (k : Nat) (P : Nat → State → Prop) (s : State) : Prop :=
  s.stage.toNat = k ∧ ∃ v, SizedFor s v ∧ P v s

/-- The cells of `ps` are reserved and those of `qs` show their values. -/
def Drawn (ps qs : List Pattern) (v : Nat) (s : State) : Prop := Reserves v ps s.rsv ∧ Shows v qs s.val

/-- `VSEL` selects one of the ten versions (R120, R122). -/
theorem leads_vsel : Leads (fun s => s.stage = 0#5) (commandResult .vsel) (InStage 1 fun _ _ => True) := by
  intro s _ hs
  obtain ⟨u, hu, e⟩ := State.pipeline_of_ne_err (k := 0#5) (body := vselBody params) hs
  change InStage 1 _ (s.pipeline 0#5 (vselBody params))
  unfold vselBody at hu
  split at hu
  · cases hu
  · next v hv =>
    obtain rfl := Except.ok.inj hu
    obtain ⟨hlow, hhigh⟩ := List.mem_range'_1.mp (List.mem_of_find?_eq_some hv)
    rw [e]
    exact ⟨rfl, v, ⟨hlow, by omega, rfl, rfl⟩, trivial⟩

/-- Any later command of the pipeline goes one stage on and keeps the version. -/
theorem leads_inStage {i : Instr} {k : Nat} {P Q : Nat → State → Prop} (hi : i ∈ Instr.pipeline) (hvsel : i ≠ .vsel)
    (hk : k ∈ acceptedStages i)
    (hstep : ∀ s v, s.stage.toNat = k → SizedFor s v → P v s → (commandResult i s).stage ≠ stageErr →
      Q v (commandResult i s)) :
    Leads (InStage k P) (commandResult i) (InStage (k + 1) Q) := by
  rintro s ⟨rfl, v, hsized, hP⟩ hs
  obtain ⟨hnext, hencode⟩ := stageAfter_pipeline hi s.stage.toNat
  have hclr : i ≠ .clr := by
    rintro rfl
    exact absurd hi (by decide)
  obtain ⟨_, hkeep⟩ := commandsWriteOnlyTheirRegisters i s _ (exec_eq_commandResult i s)
  obtain ⟨_, _, hversion, _⟩ := hkeep hs hclr
  obtain ⟨hver, hsize, _⟩ := hversion hvsel hencode
  refine ⟨?_, v, ?_, hstep s v rfl hsized hP hs⟩
  · rcases stage_commandResult hk with h | ⟨h, _⟩
    · exact h.trans hnext
    · exact absurd h hs
  · rw [SizedFor, hver, hsize]
    exact hsized

theorem commandResult_eq {i : Instr} {s t : State} (e : exec i s = .next t) : commandResult i s = t :=
  Host.Outcome.next.inj ((exec_eq_commandResult i s).symm.trans e)

theorem leads_mclr : Leads (InStage 6 fun _ _ => True) (commandResult .mclr) (InStage 7 (Drawn [] [])) := by
  refine leads_inStage (by decide) (by decide) (by decide) fun s v hs hsized _ _ => ?_
  obtain ⟨_, hhigh, _, hsize⟩ := hsized
  rw [commandResult_eq (mclrBlanksBothGrids s _ (BitVec.eq_of_toNat_eq hs) (by omega) hsize)]
  refine ⟨fun r c hr hc => ?_, fun p hp => absurd hp List.not_mem_nil⟩
  have hcell : r * (4 * v + 17) + c < (4 * v + 17) * (4 * v + 17) := cellIndex_lt (x := (r, c)) hr hc
  simp [Memory.read_number, hcell]

/-- A command that writes and reserves a pattern adds it to those drawn before, from which it lies apart. -/
theorem leads_pattern {i : Instr} {k : Nat} {ps : List Pattern} {p : Pattern}
    (hpaint : ∀ s v, s.stage.toNat = k → SizedFor s v → Reserves v ps s.rsv → ∃ t, exec i s = .next t ∧
      Painted (4 * v + 17) s.val t.val (p v) ∧ Painted (4 * v + 17) s.rsv t.rsv (flagged (p v)))
    (hsuffix : p :: ps <:+ patterns) (hi : i ∈ Instr.pipeline := by decide) (hvsel : i ≠ .vsel := by decide)
    (hk : k ∈ acceptedStages i := by decide) :
    Leads (InStage k (Drawn ps ps)) (commandResult i) (InStage (k + 1) (Drawn (p :: ps) (p :: ps))) := by
  refine leads_inStage hi hvsel hk fun s v hs hsized ⟨hrsv, hval⟩ _ => ?_
  obtain ⟨t, e, hpval, hprsv⟩ := hpaint s v hs hsized hrsv
  have hapart := patterns_apart_of_suffix (version_mem_of_sizedFor hsized) hsuffix
  rw [commandResult_eq e]
  exact ⟨hrsv.cons hprsv, hval.cons hpval hapart⟩

theorem leads_pfind : Leads (InStage 7 (Drawn [] [])) (commandResult .pfind)
    (InStage 8 (Drawn (patterns.drop 5) (patterns.drop 5))) :=
  leads_pattern (p := fun v => finderPaint (4 * v + 17))
    (fun s v hs hsized _ =>
      have ⟨t, e, _, hval, hrsv⟩ := pfindDrawsFinders s v (BitVec.eq_of_toNat_eq hs) hsized
      ⟨t, e, hval, hrsv⟩)
    (List.drop_suffix 5 patterns)

theorem leads_ptime : Leads (InStage 8 (Drawn (patterns.drop 5) (patterns.drop 5))) (commandResult .ptime)
    (InStage 9 (Drawn (patterns.drop 4) (patterns.drop 4))) :=
  leads_pattern (p := fun v => timingPaint (4 * v + 17))
    (fun s v hs hsized _ =>
      have ⟨t, e, _, hval, hrsv⟩ := ptimeDrawsTiming s v (BitVec.eq_of_toNat_eq hs) hsized
      ⟨t, e, hval, hrsv⟩)
    (List.drop_suffix 4 patterns)

theorem leads_pdark : Leads (InStage 9 (Drawn (patterns.drop 4) (patterns.drop 4))) (commandResult .pdark)
    (InStage 10 (Drawn (patterns.drop 3) (patterns.drop 3))) :=
  leads_pattern (p := darkPaint)
    (fun s v hs hsized _ =>
      have ⟨t, e, _, hval, hrsv⟩ := pdarkDrawsDarkModule s v (BitVec.eq_of_toNat_eq hs) hsized
      ⟨t, e, hval, hrsv⟩)
    (List.drop_suffix 3 patterns)

/-- Of the candidate centres, the finder and timing patterns reserve exactly those in row or column 6 (R190). -/
theorem centres_reserved : ∀ v ∈ List.range' 1 10, ∀ r ∈ coordinates v, ∀ c ∈ coordinates v,
    r < 4 * v + 17 ∧ c < 4 * v + 17 ∧
      BitVec.ofBool ((patterns.drop 3).any fun p => (p v r c).isSome) = if r = 6 ∨ c = 6 then 1#1 else 0#1 := by
  decide

theorem leads_palign : Leads (InStage 10 (Drawn (patterns.drop 3) (patterns.drop 3))) (commandResult .palign)
    (InStage 11 (Drawn (patterns.drop 2) (patterns.drop 2))) := by
  refine leads_pattern (p := alignmentPaint) (fun s v hs hsized hdrawn => ?_) (List.drop_suffix 2 patterns)
  have hcentres : ∀ r ∈ coordinates v, ∀ c ∈ coordinates v,
      s.rsv.read (r * (4 * v + 17) + c) = some (if r = 6 ∨ c = 6 then 1#1 else 0#1) := by
    intro r hr c hc
    obtain ⟨hrow, hcol, hflag⟩ := centres_reserved v (version_mem_of_sizedFor hsized) r hr c hc
    rw [← hflag]
    exact hdrawn r c hrow hcol
  obtain ⟨t, e, _, hval, hrsv⟩ := palignStampsFreeCentres s v (BitVec.eq_of_toNat_eq hs) hsized hcentres
  exact ⟨t, e, hval, hrsv⟩

theorem leads_rfmt : Leads (InStage 11 (Drawn (patterns.drop 2) (patterns.drop 2))) (commandResult .rfmt)
    (InStage 12 (Drawn (patterns.drop 1) (patterns.drop 2))) := by
  refine leads_inStage (by decide) (by decide) (by decide) fun s v hs hsized ⟨hrsv, hval⟩ _ => ?_
  obtain ⟨t, e, ht, hprsv⟩ := rfmtReservesFormatRuns s v (BitVec.eq_of_toNat_eq hs) hsized
  have hkept : t.val = s.val := by rw [ht]
  rw [commandResult_eq e]
  exact ⟨hrsv.cons (p := fun v => formatPaint (4 * v + 17)) hprsv, hkept ▸ hval⟩

theorem leads_rver : Leads (InStage 12 (Drawn (patterns.drop 1) (patterns.drop 2))) (commandResult .rver)
    (InStage 13 (Drawn patterns (patterns.drop 2))) := by
  refine leads_inStage (by decide) (by decide) (by decide) fun s v hs hsized ⟨hrsv, hval⟩ _ => ?_
  obtain ⟨t, e, ht, hprsv⟩ := rverReservesVersionBlocks s v (BitVec.eq_of_toNat_eq hs) hsized
  have hkept : t.val = s.val := by rw [ht]
  rw [commandResult_eq e]
  exact ⟨hrsv.cons (p := versionPaint) hprsv, hkept ▸ hval⟩

/-- Placement and mask change no flag and no reserved cell (R36). -/
theorem leads_zplace_mask {i : Instr} {k : Nat} (hi : i = .zplace ∨ i = .mask) (hk : k ∈ acceptedStages i) :
    Leads (InStage k (Drawn patterns (patterns.drop 2))) (commandResult i)
      (InStage (k + 1) (Drawn patterns (patterns.drop 2))) := by
  have hmem : i ∈ Instr.pipeline ∧ i ≠ .vsel ∧ i ≠ .clr ∧
      i ∉ [Instr.encode, .mclr, .pfind, .ptime, .pdark, .palign, .rfmt, .rver] := by
    rcases hi with rfl | rfl
    · decide
    · decide
  obtain ⟨hpipeline, hvsel, hclr, hother⟩ := hmem
  refine leads_inStage hpipeline hvsel hk fun s v _ _ ⟨hrsv, hval⟩ hs => ?_
  have e := exec_eq_commandResult i s
  obtain ⟨_, hkeep⟩ := commandsWriteOnlyTheirRegisters i s _ e
  obtain ⟨_, _, _, _, _, _, _, _, _, _, _, hkeepRsv⟩ := hkeep hs hclr
  exact ⟨(hkeepRsv hother).symm ▸ hrsv, hval.of_kept hrsv (List.drop_subset 2 patterns) fun j hj =>
    placementAndMaskKeepReservedCells i s _ j hi e hs hj⟩

/-! ## Format and version information -/

/-- A literal in `lsb_first` order draws bit `k` of its number at position `k` (R229). -/
theorem Draws.infoCells {n j x : Nat} {cells : List (Cell × Nat)} {position : Nat → Nat → Option Nat}
    (h : Draws n cells position) (hx : x < 2 ^ 18) :
    Draws n (infoCells params (BitVec.ofNat 18 x) j cells)
      (fun r c => (position r c).map fun k => BitVec.ofBool (x.testBit k)) := by
  have hbit : (fun k => BitVec.ofBool (x.testBit k)) = infobit params.infoBitOrder (BitVec.ofNat 18 x) j := by
    funext k
    refine Eq.trans ?_ (extractLsb'_one_eq_ofBool (BitVec.ofNat 18 x) k).symm
    rw [BitVec.getLsbD, toNat_ofNat_of_lt hx]
  rw [hbit]
  exact h.map _

/-- `WFMT` writes the format literal at the positions of both runs (R230). -/
theorem painted_wfmt {s : State} {v : Nat} (hsized : SizedFor s v) :
    Painted (4 * v + 17) s.val (stamp s.sizeN s.val (infoCells params (s.infoAt 0) 15 (formatCells s.sizeN)))
      (formatPaint (4 * v + 17)) := by
  obtain ⟨hlow, hhigh⟩ := sizedFor_le hsized
  rw [sizeN_of_sizedFor hsized]
  exact ((draws_format hlow).infoCells (x := 0x77C4) (by decide)).painted hhigh s.val

/-- `WVER` writes the version's literal at the positions of both blocks (R232). -/
theorem painted_wver {s : State} {v : Nat} (hsized : SizedFor s v) (h7 : 7 ≤ v) :
    Painted (4 * v + 17) s.val (stamp s.sizeN s.val (infoCells params (s.infoAt v) 18 (versionCells s.sizeN)))
      (versionPaint v) := by
  have hrows : ∀ v ∈ List.range' 1 10, 7 ≤ v →
      romInfo v = some (BitVec.ofNat 18 (versionLiteral v)) ∧ versionLiteral v < 2 ^ 18 := by decide
  obtain ⟨hinfo, hliteral⟩ := hrows v (version_mem_of_sizedFor hsized) h7
  obtain ⟨hlow, hhigh⟩ := sizedFor_le hsized
  have hpaint : versionPaint v = fun r c =>
      (versionPosition (4 * v + 17) r c).map fun k => BitVec.ofBool ((versionLiteral v).testBit k) := by
    funext r c
    exact if_pos h7
  have hword : s.infoAt v = BitVec.ofNat 18 (versionLiteral v) := by
    rw [State.infoAt, hinfo]
    rfl
  rw [sizeN_of_sizedFor hsized, hpaint, hword]
  exact ((draws_version hlow).infoCells hliteral).painted hhigh s.val

theorem leads_wfmt : Leads (InStage 15 (Drawn patterns (patterns.drop 2))) (commandResult .wfmt)
    (InStage 16 (Drawn patterns (patterns.drop 1))) := by
  refine leads_inStage (by decide) (by decide) (by decide) fun s v _ hsized ⟨hrsv, hval⟩ hs => ?_
  have hapart := patterns_apart_of_suffix (version_mem_of_sizedFor hsized) (List.drop_suffix 1 patterns)
  obtain ⟨u, hu, e⟩ := State.pipeline_of_ne_err hs
  obtain rfl := Except.ok.inj hu
  change Drawn _ _ v (wfmtWith params s)
  rw [wfmtWith, e]
  exact ⟨hrsv, hval.cons (painted_wfmt hsized) hapart⟩

theorem leads_wver : Leads (InStage 16 (Drawn patterns (patterns.drop 1))) (commandResult .wver)
    (InStage 17 (Drawn patterns patterns)) := by
  refine leads_inStage (by decide) (by decide) (by decide) fun s v _ hsized ⟨hrsv, hval⟩ hs => ?_
  have hapart := patterns_apart_of_suffix (version_mem_of_sizedFor hsized) (List.suffix_refl patterns)
  obtain ⟨u, hu, e⟩ := State.pipeline_of_ne_err hs
  change Drawn _ _ v (wverWith params s)
  rw [wverWith, e]
  unfold wverBody at hu
  rw [verN_of_sizedFor hsized] at hu
  split at hu
  · next h7 =>
    obtain rfl := Except.ok.inj hu
    exact ⟨hrsv, hval.cons (painted_wver hsized h7) hapart⟩
  · next h7 =>
    obtain rfl := Except.ok.inj hu
    exact ⟨hrsv, hval.cons (painted_of_none fun r c => if_neg h7) hapart⟩

/-! ## The finished symbol -/

/-- `ENCODE` reserves and shows the six patterns of its version. -/
theorem drawn_of_encode {s t : State} (hs : s.stage = 0#5) (e : exec .encode s = .next t) (ht : t.stage = stageDone) :
    ∃ v, SizedFor t v ∧ Drawn patterns patterns v t := by
  have hsized : ∀ {i k}, i ∈ Instr.pipeline → i ≠ .vsel → k ∈ acceptedStages i →
      Leads (InStage k fun _ _ => True) (commandResult i) (InStage (k + 1) fun _ _ => True) := fun hi hvsel hk =>
    leads_inStage hi hvsel hk fun _ _ _ _ _ _ => trivial
  have hchain : Leads (fun s => s.stage = 0#5) (fun s => runChain s (Instr.pipeline.map commandResult))
      (InStage 17 (Drawn patterns patterns)) :=
    leads_vsel.chain_cons <|
    (hsized (i := .bser) (by decide) (by decide) (by decide)).chain_cons <|
    (hsized (i := .pack) (by decide) (by decide) (by decide)).chain_cons <|
    (hsized (i := .rsgen) (by decide) (by decide) (by decide)).chain_cons <|
    (hsized (i := .prem) (by decide) (by decide) (by decide)).chain_cons <|
    (hsized (i := .cat) (by decide) (by decide) (by decide)).chain_cons <|
    leads_mclr.chain_cons <| leads_pfind.chain_cons <| leads_ptime.chain_cons <| leads_pdark.chain_cons <|
    leads_palign.chain_cons <| leads_rfmt.chain_cons <| leads_rver.chain_cons <|
    (leads_zplace_mask (.inl rfl) (by decide)).chain_cons <| (leads_zplace_mask (.inr rfl) (by decide)).chain_cons <|
    leads_wfmt.chain_cons <| leads_wver.chain_cons <| Leads.chain_nil _
  have hresult : runChain s (Instr.pipeline.map commandResult) = t :=
    Host.Outcome.next.inj ((exec_encode_of_stage hs).symm.trans e)
  have hne : (runChain s (Instr.pipeline.map commandResult)).stage ≠ stageErr := by
    rw [hresult, ht]
    decide
  obtain ⟨_, hdrawn⟩ := hchain s hs hne
  exact hresult ▸ hdrawn

theorem fixedPaint_eq_findSome? (v r c : Nat) : fixedPaint v r c = patterns.reverse.findSome? fun p => p v r c := by
  simp only [fixedPaint, patterns, List.reverse_cons, List.reverse_nil, List.nil_append, List.findSome?_append,
    List.findSome?_singleton, Option.or_assoc]

/-- Settles O46. -/
theorem finishedSymbolHasFixedPatterns : Obligations.FinishedSymbolHasFixedPatterns := by
  unfold Obligations.FinishedSymbolHasFixedPatterns
  intro s t hs e ht
  obtain ⟨v, hsized, hrsv, hval⟩ := drawn_of_encode hs e ht
  refine ⟨v, hsized, fun r c hr hc => ⟨fun b hb => ?_, fun hnone => ?_⟩⟩
  · rw [fixedPaint_eq_findSome?] at hb
    obtain ⟨p, hp, hpb⟩ := List.exists_of_findSome?_eq_some hb
    rw [List.mem_reverse] at hp
    have hany : (patterns.any fun p => (p v r c).isSome) = true :=
      List.any_eq_true.mpr ⟨p, hp, by rw [hpb, Option.isSome_some]⟩
    exact ⟨hval p hp r c b hr hc hpb, by rw [hrsv r c hr hc, hany]; rfl⟩
  · rw [fixedPaint_eq_findSome?, List.findSome?_eq_none_iff] at hnone
    have hany : (patterns.any fun p => (p v r c).isSome) = false :=
      List.any_eq_false.mpr fun p hp => by simp [hnone p (List.mem_reverse.mpr hp)]
    rw [hrsv r c hr hc, hany]
    rfl

end Sys2Proof.Machine
end

section
/-! PROOFS. How many cells the patterns leave free, and how many of these the mask inverts (R198, R215, R226). -/

namespace Sys2Proof.Machine

open Sys2Proof.Config Sys2Proof.Claims

/-! ## Counting in scan order -/

/-- The columns of the scan, pair by pair, the right one first (R212). -/
def scanColumns (n : Nat) : List Nat := (columnPairs n (n - 1) true).flatMap fun p => [p.1, p.1 - 1]

/-- How many cells of the scan pass, counted column by column. -/
def scanCount (n : Nat) (q : Nat → Nat → Bool) : Nat :=
  ((scanColumns n).map fun c => (List.range n).countP fun r => q r c).sum

theorem countP_rows (q : Cell → Bool) (a b : Nat) (rows : List Nat) :
    (rows.flatMap fun r => [(r, a), (r, b)]).countP q =
      rows.countP (fun r => q (r, a)) + rows.countP (fun r => q (r, b)) := by
  induction rows with
  | nil => rfl
  | cons r rows ih =>
    simp only [List.flatMap_cons, List.countP_append, ih, List.countP_cons, List.countP_nil]
    omega

/-- The direction in which a pair is scanned does not matter for a count. -/
theorem countP_pairCells (n : Nat) (q : Cell → Bool) (p : Nat × Bool) :
    (pairCells n p).countP q =
      (List.range n).countP (fun r => q (r, p.1)) + (List.range n).countP (fun r => q (r, p.1 - 1)) := by
  rw [pairCells, countP_rows]
  split
  · rw [List.countP_reverse, List.countP_reverse]
  · rfl

theorem countP_zigzagOrder (n : Nat) (free q : Cell → Bool) :
    (zigzagOrder n free).countP q = scanCount n fun r c => q (r, c) && free (r, c) := by
  rw [zigzagOrder, List.countP_filter, scanCount, scanColumns]
  induction columnPairs n (n - 1) true with
  | nil => rfl
  | cons p ps ih =>
    simp only [List.flatMap_cons, List.countP_append, countP_pairCells, ih, List.map_append, List.sum_append,
      List.map_cons, List.map_nil, List.sum_cons, List.sum_nil, Nat.add_zero]

/-! ## The free cells of a version -/

/-- The cells of a grid of `n` rows that one of the six patterns of version `v` covers. -/
def covered (n v r c : Nat) : Bool :=
  versionRegion v r c || (formatRegion n r c || (alignmentRegion v r c || (darkRegion n r c ||
    (timingRegion n r c || finderRegion n r c))))

theorem any_patterns_eq_covered {v r c : Nat} (hv : v ∈ List.range' 1 10) (hr : r < 4 * v + 17) (hc : c < 4 * v + 17) :
    (patterns.any fun p => (p v r c).isSome) = covered (4 * v + 17) v r c := by
  have hn : 21 ≤ 4 * v + 17 := by
    have := List.mem_range'_1.mp hv
    omega
  simp only [patterns, covered, List.any_cons, List.any_nil, Bool.or_false, isSome_finderPaint hn hr hc,
    isSome_timingPaint, isSome_darkPaint, isSome_formatPaint hn hc, isSome_versionPaint, isSome_alignmentPaint hv]

/-- In a finished symbol the scan order is that of the cells that no pattern covers (R198). -/
theorem freeOrder_eq {v : Nat} (hv : v ∈ List.range' 1 10) {m : Memory 1} (h : Reserves v patterns m) :
    freeOrder (4 * v + 17) m = zigzagOrder (4 * v + 17) fun x => !covered (4 * v + 17) v x.1 x.2 := by
  refine zigzagOrder_congr fun x hr hc => ?_
  rw [h x.1 x.2 hr hc, any_patterns_eq_covered hv hr hc]
  cases covered (4 * v + 17) v x.1 x.2 with
  | true => rfl
  | false => rfl

/-- R198 and R226 (e), version by version: the ten grids are evaluated, each column as one count. -/
theorem scanCount_free : ∀ v ∈ List.range' 1 10,
    scanCount (4 * v + 17) (fun r c => !covered (4 * v + 17) v r c) =
      [208, 359, 567, 807, 1079, 1383, 1608, 1976, 2376, 2808].getD (v - 1) 0 ∧
    scanCount (4 * v + 17) (fun r c => (r + c) % 2 == 0 && !covered (4 * v + 17) v r c) =
      [104, 179, 283, 403, 539, 691, 802, 986, 1186, 1402].getD (v - 1) 0 := by
  decide +kernel

/-- Settles O48. -/
theorem finishedSymbolFreeCellCounts : Obligations.FinishedSymbolFreeCellCounts := by
  unfold Obligations.FinishedSymbolFreeCellCounts
  intro s t hs e ht
  obtain ⟨v, hsized, hrsv, _⟩ := drawn_of_encode hs e ht
  have hv := version_mem_of_sizedFor hsized
  obtain ⟨hfree, heven⟩ := scanCount_free v hv
  refine ⟨v, hsized, ?_, ?_⟩
  · rw [freeOrder_eq hv hrsv, ← List.countP_true, countP_zigzagOrder, ← hfree]
    rfl
  · rw [freeOrder_eq hv hrsv, ← List.countP_eq_length_filter, countP_zigzagOrder, heven]

end Sys2Proof.Machine
end

section
/-! PROOFS. The scan order (R212, R214, R215): its column pairs, the cells of one pair, and that it visits every cell
outside column 6 once. -/

namespace Sys2Proof.Machine

open Sys2Proof.Claims

/-! ## The column pairs -/

/-- Left of column 6 three pairs remain (R214). -/
theorem columnPairs_six (fuel : Nat) (up : Bool) :
    columnPairs (fuel + 4) 6 up = [(5, up), (3, !up), (1, up)] := by
  simp [columnPairs]

/-- Right of column 6 the pairs lie two columns apart, and the direction alternates. -/
theorem columnPairs_right (fuel k : Nat) (up : Bool) :
    columnPairs (k + fuel) (2 * k + 6) up =
      (List.range k).map (fun j => (2 * k + 6 - 2 * j, up == (j % 2 == 0))) ++
        columnPairs fuel 6 (up == (k % 2 == 0)) := by
  induction k generalizing up with
  | zero => simp
  | succ k ih =>
    have hstep : columnPairs (k + 1 + fuel) (2 * (k + 1) + 6) up =
        (2 * (k + 1) + 6, up) :: columnPairs (k + fuel) (2 * k + 6) (!up) := by
      rw [Nat.add_right_comm, columnPairs, if_pos (by omega), if_neg (by omega)]
      rfl
    have hparity : ∀ j, ((!up) == (j % 2 == 0)) = (up == ((j + 1) % 2 == 0)) := fun j => by
      cases up
      all_goals
        rcases Nat.mod_two_eq_zero_or_one j with h | h
        all_goals simp [h, Nat.add_mod]
    rw [hstep, ih, hparity, List.range_succ_eq_map, List.map_cons, List.map_map, List.cons_append]
    refine congrArg₂ List.cons (by simp) (congrArg (· ++ _) (List.map_congr_left fun j _ => ?_))
    exact Prod.ext (by simp only [Function.comp]; omega) (hparity j)

/-- R214: `SIZE` = 4v+17 leaves 2v+5 pairs right of column 6. -/
theorem columnPairs_eq_scanPairs (v : Nat) : columnPairs (4 * v + 17) (4 * v + 16) true = scanPairs v := by
  have h := columnPairs_right (2 * v + 8 + 4) (2 * v + 5) true
  have hodd : (true == ((2 * v + 5) % 2 == 0)) = false := by
    rw [show (2 * v + 5) % 2 = 1 by omega]
    rfl
  rw [columnPairs_six, hodd] at h
  simpa [scanPairs, show 2 * v + 5 + (2 * v + 8 + 4) = 4 * v + 17 by omega,
    show 2 * (2 * v + 5) + 6 = 4 * v + 16 by omega] using h

theorem one_le_of_mem_scanPairs {v : Nat} {p : Nat × Bool} (h : p ∈ scanPairs v) : 1 ≤ p.1 := by
  simp only [scanPairs, List.mem_append, List.mem_map, List.mem_range, List.mem_cons, List.not_mem_nil,
    or_false] at h
  rcases h with ⟨j, hj, rfl⟩ | rfl | rfl | rfl
  · change 1 ≤ 4 * v + 16 - 2 * j
    omega
  all_goals decide

/-- Two pairs share no column. -/
theorem scanPairs_apart (v : Nat) : (scanPairs v).Pairwise fun p q => q.1 + 2 ≤ p.1 := by
  rw [scanPairs, List.pairwise_append, List.pairwise_map]
  refine ⟨List.pairwise_lt_range.imp_of_mem fun hi hj hlt => ?_, by decide, fun p hp q hq => ?_⟩
  · have hi' := List.mem_range.mp hi
    have hj' := List.mem_range.mp hj
    dsimp only
    omega
  · obtain ⟨j, hj, rfl⟩ := List.mem_map.mp hp
    have hj' := List.mem_range.mp hj
    have hq' : q.1 ≤ 5 := (by decide : ∀ q ∈ [(5, false), (3, true), (1, false)], q.1 ≤ 5) q hq
    dsimp only
    omega

/-- The pairs cover every column of the grid but column 6. -/
theorem exists_mem_scanPairs_iff (v c : Nat) :
    (∃ p ∈ scanPairs v, c = p.1 ∨ c = p.1 - 1) ↔ c < 4 * v + 17 ∧ c ≠ 6 := by
  simp only [scanPairs, List.mem_append, List.mem_map, List.mem_range, List.mem_cons, List.not_mem_nil, or_false]
  constructor
  · rintro ⟨_, ⟨j, hj, rfl⟩ | rfl | rfl | rfl, hc⟩
    all_goals
      dsimp only at hc
      omega
  · rintro ⟨hlt, hne⟩
    rcases Nat.lt_or_ge c 6 with hleft | hright
    · have hthree : (c = 5 ∨ c = 4) ∨ (c = 3 ∨ c = 2) ∨ c = 1 ∨ c = 0 := by omega
      rcases hthree with h | h | h
      · exact ⟨_, .inr (.inl rfl), h⟩
      · exact ⟨_, .inr (.inr (.inl rfl)), h⟩
      · exact ⟨_, .inr (.inr (.inr rfl)), h⟩
    · refine ⟨_, .inl ⟨(4 * v + 16 - c) / 2, by omega, rfl⟩, ?_⟩
      dsimp only
      omega

/-! ## The cells of one pair -/

/-- Two cells a row: the cells at 2i and 2i+1 stand in row `rows[i]`. -/
theorem getElem?_rows (rows : List Nat) (a b k : Nat) :
    (rows.flatMap fun r => [(r, a), (r, b)])[k]? = rows[k / 2]?.map fun r => (r, if k % 2 = 0 then a else b) := by
  induction rows generalizing k with
  | nil => simp
  | cons r rows ih =>
    rw [List.flatMap_cons]
    match k with
    | 0 => rfl
    | 1 => rfl
    | k + 2 =>
      rw [Nat.add_div_right k Nat.two_pos, Nat.add_mod_right, List.getElem?_cons_succ, ← ih k]
      rfl

/-- R212: the cells of a pair are those of `scanCell`, in its order. -/
theorem pairCells_eq_map (n : Nat) (p : Nat × Bool) :
    pairCells n p = (List.range (2 * n)).map (scanCell n p.1 p.2) := by
  obtain ⟨right, up⟩ := p
  refine List.ext_getElem? fun k => ?_
  rw [pairCells, getElem?_rows, List.getElem?_map]
  by_cases hk : k < 2 * n
  · have hrow : k / 2 < n := by omega
    rw [List.getElem?_range hk]
    cases up with
    | true => simp [scanCell, hrow]
    | false => simp [scanCell, hrow]
  · have hrow : n ≤ k / 2 := by omega
    cases up with
    | true => simp [Nat.not_lt.mp hk, hrow]
    | false => simp [Nat.not_lt.mp hk, hrow]

theorem mem_pairCells_iff (n : Nat) (p : Nat × Bool) (x : Cell) :
    x ∈ pairCells n p ↔ x.1 < n ∧ (x.2 = p.1 ∨ x.2 = p.1 - 1) := by
  obtain ⟨r, c⟩ := x
  have hrows : ∀ i, (i ∈ if p.2 then (List.range n).reverse else List.range n) ↔ i < n := by
    intro i
    cases p.2 with
    | true => simp
    | false => simp
  simp only [pairCells, List.mem_flatMap, hrows, List.mem_cons, List.not_mem_nil, or_false, Prod.mk.injEq]
  constructor
  · rintro ⟨_, hr, ⟨rfl, hc⟩ | ⟨rfl, hc⟩⟩
    · exact ⟨hr, .inl hc⟩
    · exact ⟨hr, .inr hc⟩
  · rintro ⟨hr, hc⟩
    exact ⟨r, hr, hc.imp (⟨rfl, ·⟩) (⟨rfl, ·⟩)⟩

/-- With two columns, a pair visits no cell twice. -/
theorem nodup_pairCells (n : Nat) {p : Nat × Bool} (h : 1 ≤ p.1) : (pairCells n p).Nodup := by
  rw [pairCells_eq_map]
  refine List.Nodup.map_on (fun i hi j hj e => ?_) List.nodup_range
  have hi' := List.mem_range.mp hi
  have hj' := List.mem_range.mp hj
  obtain ⟨hrow, hcol⟩ := Prod.mk.inj e
  have hhalf : i / 2 = j / 2 := by
    cases hp : p.2 with
    | true =>
      rw [hp, if_pos rfl, if_pos rfl] at hrow
      omega
    | false => rwa [hp] at hrow
  have hparity : i % 2 = 0 ↔ j % 2 = 0 := by
    split_ifs at hcol
    all_goals omega
  omega

/-! ## The scan -/

/-- The scan of a grid whose width is that of a symbol, one pair after another. -/
theorem zigzagOrder_eq (v : Nat) (free : Cell → Bool) :
    zigzagOrder (4 * v + 17) free = ((scanPairs v).flatMap (pairCells (4 * v + 17))).filter free := by
  rw [zigzagOrder, Nat.add_sub_cancel (n := 4 * v + 16) (m := 1), columnPairs_eq_scanPairs]

theorem nodup_zigzagOrder (v : Nat) (free : Cell → Bool) : (zigzagOrder (4 * v + 17) free).Nodup := by
  rw [zigzagOrder_eq]
  refine List.Nodup.filter _ (List.nodup_flatMap.mpr ⟨fun p hp => nodup_pairCells _ (one_le_of_mem_scanPairs hp), ?_⟩)
  refine (scanPairs_apart v).imp_of_mem fun {p q} hp _ hpq x hxp hxq => ?_
  have hpos := one_le_of_mem_scanPairs hp
  obtain ⟨_, hcol⟩ := (mem_pairCells_iff _ _ _).mp hxp
  obtain ⟨_, hcol'⟩ := (mem_pairCells_iff _ _ _).mp hxq
  omega

/-- R215. -/
theorem mem_zigzagOrder_iff (v : Nat) (free : Cell → Bool) (x : Cell) :
    x ∈ zigzagOrder (4 * v + 17) free ↔ x.1 < 4 * v + 17 ∧ (x.2 < 4 * v + 17 ∧ x.2 ≠ 6) ∧ free x = true := by
  rw [zigzagOrder_eq, List.mem_filter, List.mem_flatMap, ← exists_mem_scanPairs_iff]
  simp only [mem_pairCells_iff]
  constructor
  · rintro ⟨⟨p, hp, hrow, hcol⟩, hfree⟩
    exact ⟨hrow, ⟨p, hp, hcol⟩, hfree⟩
  · rintro ⟨hrow, ⟨p, hp, hcol⟩, hfree⟩
    exact ⟨⟨p, hp, hrow, hcol⟩, hfree⟩

/-- Settles O39. -/
theorem scanOrderVisitsFreeCellsOnce : Obligations.ScanOrderVisitsFreeCellsOnce := by
  unfold Obligations.ScanOrderVisitsFreeCellsOnce
  refine ⟨columnPairs_eq_scanPairs, fun n right up => ⟨?_, fun k hk => ?_⟩, fun v free => ?_,
    fun v free hsix => ⟨nodup_zigzagOrder v free, fun r c => ?_⟩⟩
  · rw [pairCells_eq_map, List.length_map, List.length_range]
  · rw [pairCells_eq_map, List.getElem?_map, List.getElem?_range hk, Option.map_some]
  · simp only [zigzagOrder_eq, ← pairCells_eq_map]
  · rw [mem_zigzagOrder_iff]
    refine ⟨fun ⟨hr, ⟨hc, _⟩, hfree⟩ => ⟨hr, hc, hfree⟩, fun ⟨hr, hc, hfree⟩ => ⟨hr, ⟨hc, ?_⟩, hfree⟩⟩
    rintro rfl
    exact absurd (hfree.symm.trans (hsix r)) (by decide)

end Sys2Proof.Machine
end

section
/-! PROOFS. `ZPLACE` (R210 to R213): the free cells and the codeword bits that it pairs, and what it leaves in the
grid. -/

namespace Sys2Proof.Machine

open Sys2Proof.Config Sys2Proof.Claims

/-! ## The free cells in scan order -/

/-- A free cell lies in the grid, and its flag is 0. -/
theorem mem_freeOrder {n : Nat} {m : Memory 1} {x : Cell} (h : x ∈ freeOrder n m) :
    (x.1 < n ∧ x.2 < n) ∧ m.read (cellIndex n x) = some 0#1 := by
  obtain ⟨hscan, hfree⟩ := List.mem_filter.mp h
  exact ⟨mem_scan hscan, eq_of_beq hfree⟩

/-- In a symbol's scan order, one element of the grid has one place. -/
theorem freeOrder_place_unique {v i j : Nat} {m : Memory 1} {x y : Cell} (hi : (freeOrder (4 * v + 17) m)[i]? = some x)
    (hj : (freeOrder (4 * v + 17) m)[j]? = some y) (h : cellIndex (4 * v + 17) x = cellIndex (4 * v + 17) y) :
    i = j := by
  obtain ⟨⟨_, hx⟩, _⟩ := mem_freeOrder (List.mem_of_getElem? hi)
  obtain ⟨⟨_, hy⟩, _⟩ := mem_freeOrder (List.mem_of_getElem? hj)
  obtain rfl := cellIndex_inj hx hy h
  obtain ⟨hlt, _⟩ := List.getElem?_eq_some_iff.mp hi
  exact (List.getElem?_inj hlt (nodup_zigzagOrder v _)).mp (hi.trans hj.symm)

/-! ## What is placed -/

theorem Memory.holdsBelow_iff {w : Nat} (m : Memory w) (n : Nat) :
    m.holdsBelow n = true ↔ ∀ k < n, (m.read k).isSome = true := by
  simp only [Memory.holdsBelow, List.all_eq_true, List.mem_range]

section
variable {s : State} {m : Nat}

theorem State.getElem?_cwList {k : Nat} (h : s.cw.holdsBelow m = true) (hk : k < m) :
    (s.cwList m)[k]? = s.cw.read k := by
  obtain ⟨x, hx⟩ := Option.isSome_iff_exists.mp ((Memory.holdsBelow_iff _ _).mp h k hk)
  rw [State.cwList, List.getElem?_map, List.getElem?_range hk, Option.map_some, State.cwAt, hx]
  rfl

theorem length_placementBits (s : State) : s.placementBits.length = 8 * s.nacN := by
  rw [State.placementBits, length_flatMap_bitsMsbFirst, State.cwList, List.length_map, List.length_range]

/-- R211. -/
theorem getElem?_placementBits {j : Nat} (h : s.cw.holdsBelow s.nacN = true) (hj : j < 8 * s.nacN) :
    s.placementBits[j]? = dataBit s j := by
  rw [State.placementBits, getElem?_flatMap_bitsMsbFirst, State.getElem?_cwList h (by omega), dataBit]

/-- Where every flag is written, the cells to fill are found without a draw. -/
theorem placementCells_eq_freeOrder (h : s.rsv.holdsBelow (s.sizeN * s.sizeN) = true) :
    s.placementCells = freeOrder s.sizeN s.rsv := by
  refine zigzagOrder_congr fun x hr hc => ?_
  obtain ⟨b, hb⟩ := Option.isSome_iff_exists.mp ((Memory.holdsBelow_iff _ _).mp h _ (cellIndex_lt hr hc))
  rw [s.rsvAt_of_read hb, ← cellIndex, hb]
  rfl

/-- R213: a cell takes a bit exactly when both have the same place. -/
theorem mem_placement_iff (hrsv : s.rsv.holdsBelow (s.sizeN * s.sizeN) = true) (hcw : s.cw.holdsBelow s.nacN = true)
    (x : Cell) (b : Bit) :
    (x, b) ∈ s.placement ↔ ∃ j < 8 * s.nacN, (freeOrder s.sizeN s.rsv)[j]? = some x ∧ dataBit s j = some b := by
  rw [State.placement, placementCells_eq_freeOrder hrsv, List.mem_iff_getElem?]
  simp only [List.getElem?_zip_eq_some]
  constructor
  · rintro ⟨j, hx, hb⟩
    have hj : j < 8 * s.nacN := length_placementBits s ▸ (List.getElem?_eq_some_iff.mp hb).1
    exact ⟨j, hj, hx, getElem?_placementBits hcw hj ▸ hb⟩
  · rintro ⟨j, hj, hx, hb⟩
    exact ⟨j, hx, (getElem?_placementBits hcw hj).trans hb⟩

theorem length_placement (hrsv : s.rsv.holdsBelow (s.sizeN * s.sizeN) = true) :
    s.placement.length = min (freeOrder s.sizeN s.rsv).length (8 * s.nacN) := by
  rw [State.placement, List.length_zip, placementCells_eq_freeOrder hrsv, length_placementBits]

theorem isSome_dataBit {j : Nat} (h : s.cw.holdsBelow m = true) (hj : j < 8 * m) : (dataBit s j).isSome = true := by
  rw [dataBit, Option.isSome_map]
  exact (Memory.holdsBelow_iff _ _).mp h _ (by omega)

end

/-- Settles O38: a free cell has one place in the scan, so no later bit overwrites the one that it took. -/
theorem zplacePlacesBitsInScanOrder : Obligations.ZplacePlacesBitsInScanOrder := by
  unfold Obligations.ZplacePlacesBitsInScanOrder
  intro s v m hs hsized hm hnac hcw hrsv
  obtain ⟨_, hside⟩ := sizedFor_le hsized
  have hsize := sizeN_of_sizedFor hsized
  obtain rfl : s.nacN = m := s.operand_toNat .nac hnac hm
  rw [← hsize] at hrsv hside ⊢
  have hplaced := mem_placement_iff hrsv hcw
  have hdepth : s.sizeN * s.sizeN ≤ gridDepth := Nat.mul_le_mul hside hside
  refine ⟨_, congrArg Host.Outcome.next (s.pipeline_ok 13#5 zplaceBody _ (by decide) hs rfl), ?_, fun j x hj hx => ?_,
    fun k hk => ?_⟩
  · rw [← length_placement hrsv]
    rfl
  · obtain ⟨b, hb⟩ := Option.isSome_iff_exists.mp (isSome_dataBit hcw hj)
    obtain ⟨⟨hr, hc⟩, _⟩ := mem_freeOrder (List.mem_of_getElem? hx)
    rw [hb]
    have hmem : (x, b) ∈ s.placement := (hplaced x b).mpr ⟨j, hj, hx, hb⟩
    refine read_stamp_of_agree (m := s.val) hmem ((cellIndex_lt hr hc).trans_le hdepth) ?_
    rintro ⟨y, b'⟩ hy hindex
    obtain ⟨j', _, hy', hb'⟩ := (hplaced y b').mp hy
    rw [hsize] at hx hy' hindex
    obtain rfl := freeOrder_place_unique hy' hx hindex
    exact Option.some.inj (hb'.symm.trans hb)
  · refine read_stamp_other s.sizeN s.val s.placement k ?_
    rintro ⟨y, b⟩ hy
    obtain ⟨j, hj, hy', _⟩ := (hplaced y b).mp hy
    exact hk j y hj hy'

end Sys2Proof.Machine
end

section
/-! PROOFS. The codewords of an encode (R116, R127, R166): from a state of stage 0, whatever it holds, the commands up
to `CAT` leave no more codewords than the symbol has room for. -/

namespace Sys2Proof.Machine

open Sys2Proof.Config Sys2Proof.Claims

/-! ## The version table and the free cells -/

/-- Row by row of R40 and R198: stream and pads fit into `total`, and `total` with the parity into the free cells. -/
theorem versionRow_capacity : ∀ v ∈ List.range' 1 10,
    streamCodewords v (vtab params v 0) ≤ vtab params v 1 ∧ vtab params v 3 ≤ vtab params v 1 ∧
    vtab params v 1 ≤ 274 ∧ vtab params v 2 ≤ 30 ∧
    8 * (vtab params v 1 + vtab params v 2) ≤
      [208, 359, 567, 807, 1079, 1383, 1608, 1976, 2376, 2808].getD (v - 1) 0 := by
  decide

theorem streamCodewords_mono (v : Nat) {k l : Nat} (h : k ≤ l) : streamCodewords v k ≤ streamCodewords v l := by
  unfold streamCodewords
  split
  · omega
  · omega

/-- Where the flags are those of the six patterns, all codewords of the version have room (R216). -/
theorem capacity_le_length_freeOrder {v : Nat} {m : Memory 1} (hv : v ∈ List.range' 1 10) (h : Reserves v patterns m) :
    8 * (vtab params v 1 + vtab params v 2) ≤ (freeOrder (4 * v + 17) m).length := by
  obtain ⟨_, _, _, _, hroom⟩ := versionRow_capacity v hv
  obtain ⟨hfree, _⟩ := scanCount_free v hv
  rw [freeOrder_eq hv h, ← List.countP_true, countP_zigzagOrder]
  simpa only [Bool.true_and, hfree] using hroom

/-! ## What the codeword commands leave -/

/-- The row of the selected version, which takes the declared length. -/
def Declared (v : Nat) (s : State) : Prop := s.Selects v ∧ s.lenV.toNat ≤ vtab params v 0

/-- The stream has at most `total` codewords. -/
def Streamed (v : Nat) (s : State) : Prop := s.Selects v ∧ s.blenN / 8 ≤ vtab params v 1

/-- `CW` holds the `NDC` data codewords, at most `total`. -/
def Packed (v : Nat) (s : State) : Prop :=
  s.Selects v ∧ ∃ n ≤ vtab params v 1, s.ndc = some (BitVec.ofNat 9 n) ∧ s.cw.holdsBelow n = true

/-- `CW` holds the `NAC` codewords, at most `total` and the parity. -/
def Coded (v : Nat) (s : State) : Prop :=
  ∃ m ≤ vtab params v 1 + vtab params v 2, s.nac = some (BitVec.ofNat 9 m) ∧ s.cw.holdsBelow m = true

/-- A command of the pipeline after `VSEL` keeps the selected row. -/
theorem selects_commandResult {i : Instr} {s : State} {v : Nat} (h : s.Selects v)
    (hs : (commandResult i s).stage ≠ stageErr)
    (hi : i ≠ .clr ∧ i ≠ .vsel ∧ i ≠ .encode := by decide) : (commandResult i s).Selects v := by
  obtain ⟨hclr, hvsel, hencode⟩ := hi
  obtain ⟨_, hkeep⟩ := commandsWriteOnlyTheirRegisters i s _ (exec_eq_commandResult i s)
  obtain ⟨_, _, hversion, _⟩ := hkeep hs hclr
  obtain ⟨hver, hsize, htot, hec, hdat⟩ := hversion hvsel hencode
  rw [State.Selects, hver, hsize, htot, hec, hdat]
  exact h

theorem leads_vsel_declared : Leads (fun s => s.stage = 0#5) (commandResult .vsel) (InStage 1 Declared) := by
  intro s _ hs
  obtain ⟨u, hu, e⟩ := State.pipeline_of_ne_err (k := 0#5) (body := vselBody params) hs
  change InStage 1 _ (s.pipeline 0#5 (vselBody params))
  unfold vselBody at hu
  split at hu
  · cases hu
  · next v hv =>
    obtain rfl := Except.ok.inj hu
    obtain ⟨hlow, hhigh⟩ := List.mem_range'_1.mp (List.mem_of_find?_eq_some hv)
    have hmax : s.lenV.toNat ≤ vtab params v 0 := by simpa using List.find?_some hv
    rw [e]
    exact ⟨rfl, v, ⟨hlow, by omega, rfl, rfl⟩, ⟨rfl, rfl, rfl, rfl, rfl⟩, hmax⟩

theorem leads_bser_streamed : Leads (InStage 1 Declared) (commandResult .bser) (InStage 2 Streamed) := by
  refine leads_inStage (by decide) (by decide) (by decide) fun s v _ hsized ⟨hrow, hlen⟩ hs => ?_
  refine ⟨selects_commandResult hrow hs, ?_⟩
  obtain ⟨hstream, _⟩ := versionRow_capacity v (version_mem_of_sizedFor hsized)
  obtain ⟨u, hu, e⟩ := State.pipeline_of_ne_err hs
  change (bserState s).blenN / 8 ≤ _
  rw [bserState, e]
  unfold bserBody at hu
  split at hu
  · cases hu
  · next d hd =>
    obtain rfl := Except.ok.inj hu
    obtain ⟨hcount, _⟩ := State.payload_eq_some hd
    have hbits : (bitStream s.verN s.lenV d).length = 8 * streamCodewords v s.lenV.toNat := by
      rw [length_bitStream, hcount, verN_of_sizedFor hsized]
    have hblen : (BitVec.ofNat 12 (bitStream s.verN s.lenV d).length).toNat ≤ 8 * streamCodewords v s.lenV.toNat := by
      rw [hbits, BitVec.toNat_ofNat]
      exact Nat.mod_le _ _
    calc (BitVec.ofNat 12 (bitStream s.verN s.lenV d).length).toNat / 8
        ≤ streamCodewords v s.lenV.toNat := Nat.div_le_of_le_mul hblen
      _ ≤ streamCodewords v (vtab params v 0) := streamCodewords_mono v hlen
      _ ≤ vtab params v 1 := hstream

theorem leads_pack_packed : Leads (InStage 2 Streamed) (commandResult .pack) (InStage 3 Packed) := by
  refine leads_inStage (by decide) (by decide) (by decide) fun s v _ hsized ⟨hrow, hblen⟩ hs => ?_
  refine ⟨selects_commandResult hrow hs, ?_⟩
  obtain ⟨_, hdata, htotal, _⟩ := versionRow_capacity v (version_mem_of_sizedFor hsized)
  obtain ⟨_, _, _, _, hdat⟩ := hrow
  have hdatN : s.datN = vtab params v 3 := s.operand_toNat .dat hdat (by omega)
  have hcount : s.dataCodewords.length ≤ vtab params v 1 := by
    rw [length_dataCodewords, hdatN]
    exact max_le hblen hdata
  have hdepth : s.dataCodewords.length ≤ cwDepth := hcount.trans (htotal.trans (by decide))
  obtain ⟨u, hu, e⟩ := State.pipeline_of_ne_err hs
  obtain rfl := Except.ok.inj hu
  change ∃ n ≤ _, (packState s).ndc = _ ∧ (packState s).cw.holdsBelow n = true
  rw [packState, e]
  refine ⟨_, hcount, rfl, (Memory.holdsBelow_iff _ _).mpr fun k hk => ?_⟩
  refine (congrArg Option.isSome (Memory.read_writeRange_zero_of_lt s.cw _ hdepth hk)).trans ?_
  rw [List.getElem?_eq_getElem hk, Option.isSome_some]

/-- `RSGEN` and `PREM` write no codeword. -/
theorem packed_commandResult {i : Instr} {s : State} {v : Nat} (hi : i = .rsgen ∨ i = .prem) (h : Packed v s)
    (hs : (commandResult i s).stage ≠ stageErr) : Packed v (commandResult i s) := by
  have hother : i ≠ .clr ∧ i ≠ .vsel ∧ i ≠ .encode ∧ i ≠ .pack ∧ i ≠ .cat := by
    rcases hi with rfl | rfl
    · decide
    · decide
  obtain ⟨hclr, hvsel, hencode, hpack, hcat⟩ := hother
  obtain ⟨_, hkeep⟩ := commandsWriteOnlyTheirRegisters i s _ (exec_eq_commandResult i s)
  obtain ⟨_, _, _, _, hndc, _, hcw, _⟩ := hkeep hs hclr
  obtain ⟨hrow, hdata⟩ := h
  refine ⟨selects_commandResult hrow hs ⟨hclr, hvsel, hencode⟩, ?_⟩
  rw [hndc hpack hencode, hcw hpack hcat hencode]
  exact hdata

theorem leads_rsgen_packed : Leads (InStage 3 Packed) (commandResult .rsgen) (InStage 4 Packed) :=
  leads_inStage (by decide) (by decide) (by decide) fun _ _ _ _ h hs => packed_commandResult (.inl rfl) h hs

/-- `PREM` leaves a remainder of `EC` coefficients. -/
theorem leads_prem_packed : Leads (InStage 4 Packed) (commandResult .prem)
    (InStage 5 fun v s => Packed v s ∧ s.rem.holdsBelow (vtab params v 2) = true) := by
  refine leads_inStage (by decide) (by decide) (by decide) fun s v _ hsized h hs => ?_
  refine ⟨packed_commandResult (.inr rfl) h hs, ?_⟩
  obtain ⟨⟨_, _, _, hec, _⟩, _⟩ := h
  obtain ⟨_, _, _, hparity, _⟩ := versionRow_capacity v (version_mem_of_sizedFor hsized)
  have hecN : s.ecN = vtab params v 2 := s.operand_toNat .ec hec (by omega)
  have hlen : s.ecN ≤ (prem (s.cwList s.ndcN) (s.genList (s.ecN + 1))).length := by
    simpa using le_length_prem (s.cwList s.ndcN) (s.genList (s.ecN + 1))
  have hdepth : s.ecN ≤ remDepth := hecN.trans_le hparity
  obtain ⟨_, hheld⟩ := eq_and_heldBelow_rewritten s.rem s.rem _ hdepth hlen
  obtain ⟨u, hu, e⟩ := State.pipeline_of_ne_err hs
  obtain rfl := Except.ok.inj hu
  change (premState s).rem.holdsBelow _ = true
  rw [premState, e, ← hecN]
  exact (Memory.holdsBelow_iff _ _).mpr fun k hk => held_self_iff.mp (hheld k hk)

theorem leads_cat_coded : Leads (InStage 5 fun v s => Packed v s ∧ s.rem.holdsBelow (vtab params v 2) = true)
    (commandResult .cat) (InStage 6 Coded) := by
  refine leads_inStage (by decide) (by decide) (by decide) fun s v hstage hsized ⟨hpacked, hrem⟩ _ => ?_
  obtain ⟨⟨_, _, _, hec, _⟩, n, hn, hndc, hcw⟩ := hpacked
  obtain ⟨_, _, htotal, hparity, _⟩ := versionRow_capacity v (version_mem_of_sizedFor hsized)
  obtain ⟨t, e, ht, hnew, hold⟩ := catAppendsParity s n (vtab params v 2) (BitVec.eq_of_toNat_eq hstage) (by omega) hndc
    (by omega) hec hrem
  rw [commandResult_eq e]
  refine ⟨n + vtab params v 2, Nat.add_le_add_right hn _, by rw [ht], (Memory.holdsBelow_iff _ _).mpr fun k hk => ?_⟩
  by_cases hkn : k < n
  · rw [hold k (.inl hkn)]
    exact (Memory.holdsBelow_iff _ _).mp hcw _ hkn
  · obtain ⟨i, rfl⟩ := Nat.exists_eq_add_of_le (Nat.not_lt.mp hkn)
    rw [hnew i (by omega)]
    exact (Memory.holdsBelow_iff _ _).mp hrem _ (by omega)

/-- The matrix commands write no codeword. -/
theorem coded_commandResult {i : Instr} {s : State} {v : Nat} (h : Coded v s)
    (hs : (commandResult i s).stage ≠ stageErr)
    (hi : i ≠ .clr ∧ i ≠ .pack ∧ i ≠ .cat ∧ i ≠ .encode := by decide) : Coded v (commandResult i s) := by
  obtain ⟨hclr, hpack, hcat, hencode⟩ := hi
  obtain ⟨_, hkeep⟩ := commandsWriteOnlyTheirRegisters i s _ (exec_eq_commandResult i s)
  obtain ⟨_, _, _, _, _, hnac, hcw, _⟩ := hkeep hs hclr
  rw [Coded, hnac hcat hencode, hcw hpack hcat hencode]
  exact h

end Sys2Proof.Machine
end

section
/-! PROOFS. The data in a finished symbol (R213, R216, R217, R226): the patterns leave the free cells blank, `ZPLACE`
puts every codeword bit into one of them, `MASK` inverts those of an even sum, and the information cells are none of
them. -/

namespace Sys2Proof.Machine

open Sys2Proof.Config Sys2Proof.Claims

/-! ## Chains that are followed side by side -/

/-- `VER` tells the version. -/
theorem version_unique {s : State} {v w : Nat} (hv : SizedFor s v) (hw : SizedFor s w) : v = w :=
  (verN_of_sizedFor hv).symm.trans (verN_of_sizedFor hw)

/-- What a command leads to in two respects, it leads to in both. -/
theorem Leads.and {k l : Nat} {P P' Q Q' : Nat → State → Prop} {f : State → State}
    (h : Leads (InStage k P) f (InStage l Q)) (h' : Leads (InStage k P') f (InStage l Q')) :
    Leads (InStage k fun v s => P v s ∧ P' v s) f (InStage l fun v s => Q v s ∧ Q' v s) := by
  rintro s ⟨hstage, v, hsized, hP, hP'⟩ hs
  obtain ⟨hstage', w, hsized', hQ⟩ := h s ⟨hstage, v, hsized, hP⟩ hs
  obtain ⟨_, w', hsized'', hQ'⟩ := h' s ⟨hstage, v, hsized, hP'⟩ hs
  obtain rfl := version_unique hsized' hsized''
  exact ⟨hstage', w, hsized', hQ, hQ'⟩

/-! ## Blank cells -/

/-- Every element whose flag is 0 has the value 0. -/
def BlankWhereFree (rsv val : Memory 1) : Prop := ∀ k, rsv.read k = some 0#1 → val.read k = some 0#1

section
variable {n : Nat} {rsv val : Memory 1}

/-- A flag is never taken away. -/
theorem BlankWhereFree.flag (h : BlankWhereFree rsv val) (cells : List Cell) :
    BlankWhereFree (flag n rsv cells) val := by
  induction cells generalizing rsv with
  | nil => exact h
  | cons x cells ih =>
    refine ih (rsv := rsv.write gridDepth (cellIndex n x) 1#1) fun k hk => ?_
    rw [Memory.read_write] at hk
    split at hk
    · cases hk
    · exact h k hk

/-- A pattern that is written and reserved (R180) writes no cell that stays free. -/
theorem BlankWhereFree.stampReserved (h : BlankWhereFree rsv val) (cells : List (Cell × Bit)) :
    BlankWhereFree (Machine.flag n rsv (cells.map Prod.fst)) (stamp n val cells) := by
  induction cells generalizing rsv val with
  | nil => exact h
  | cons c cells ih =>
    refine ih (rsv := rsv.write gridDepth (cellIndex n c.1) 1#1) (val := val.write gridDepth (cellIndex n c.1) c.2)
      fun k hk => ?_
    rw [Memory.read_write] at hk ⊢
    split at hk
    · cases hk
    · next hne => exact (if_neg hne).trans (h k hk)

end

theorem blankWhereFree_alignAt {s : State} (h : BlankWhereFree s.rsv s.val) (x : Cell) :
    BlankWhereFree (s.alignAt x).rsv (s.alignAt x).val := by
  unfold State.alignAt
  split
  · exact h
  · exact h.stampReserved _

/-- No pattern command writes a cell that it leaves free. -/
theorem blankWhereFree_commandResult {i : Instr} {s : State}
    (hi : i ∈ [Instr.pfind, .ptime, .pdark, .palign, .rfmt, .rver]) (hs : (commandResult i s).stage ≠ stageErr)
    (h : BlankWhereFree s.rsv s.val) : BlankWhereFree (commandResult i s).rsv (commandResult i s).val := by
  simp only [List.mem_cons, List.not_mem_nil, or_false] at hi
  rcases hi with rfl | rfl | rfl | rfl | rfl | rfl
  all_goals
    obtain ⟨u, hu, e⟩ := State.pipeline_of_ne_err hs
    refine (congrArg (fun t : State => BlankWhereFree t.rsv t.val) e).mpr ?_
  · exact Except.ok.inj hu ▸ h.stampReserved _
  · exact Except.ok.inj hu ▸ h.stampReserved _
  · exact Except.ok.inj hu ▸ h.stampReserved _
  · obtain rfl := Except.ok.inj hu
    exact List.foldlRecOn (motive := fun t : State => BlankWhereFree t.rsv t.val) s.alignmentCentres _ h
      fun t ht x _ => blankWhereFree_alignAt ht x
  · exact Except.ok.inj hu ▸ h.flag _
  · unfold rverBody at hu
    split at hu
    · exact Except.ok.inj hu ▸ h.flag _
    · exact Except.ok.inj hu ▸ h

/-- The codewords stand in `CW`, and the free cells are blank. -/
def Ready (v : Nat) (s : State) : Prop := Coded v s ∧ BlankWhereFree s.rsv s.val

theorem leads_mclr_ready : Leads (InStage 6 Coded) (commandResult .mclr) (InStage 7 Ready) := by
  refine leads_inStage (by decide) (by decide) (by decide) fun s v hstage hsized h hs => ⟨coded_commandResult h hs, ?_⟩
  obtain ⟨_, hhigh, _, hsize⟩ := hsized
  rw [commandResult_eq (mclrBlanksBothGrids s _ (BitVec.eq_of_toNat_eq hstage) (by omega) hsize)]
  exact fun _ h => h

theorem leads_mclr_drawn_ready :
    Leads (InStage 6 Coded) (commandResult .mclr) (InStage 7 fun v s => Drawn [] [] v s ∧ Ready v s) :=
  fun s ⟨hstage, v, hsized, h⟩ => (leads_mclr.and leads_mclr_ready) s ⟨hstage, v, hsized, trivial, h⟩

theorem leads_ready {i : Instr} {k : Nat} (hi : i ∈ [Instr.pfind, .ptime, .pdark, .palign, .rfmt, .rver] := by decide)
    (hk : k ∈ acceptedStages i := by decide) : Leads (InStage k Ready) (commandResult i) (InStage (k + 1) Ready) := by
  have hother : ∀ i ∈ [Instr.pfind, .ptime, .pdark, .palign, .rfmt, .rver], (i ∈ Instr.pipeline ∧ i ≠ .vsel) ∧
      i ≠ .clr ∧ i ≠ .pack ∧ i ≠ .cat ∧ i ≠ .encode := by decide
  obtain ⟨⟨hpipeline, hvsel⟩, hnot⟩ := hother i hi
  exact leads_inStage hpipeline hvsel hk fun s v _ _ ⟨hcoded, hblank⟩ hs =>
    ⟨coded_commandResult hcoded hs hnot, blankWhereFree_commandResult hi hs hblank⟩

/-! ## The placed bits -/

/-- What cell `j` of the scan order takes (R213): the bit of that place, and 0 after the last one. -/
def placedBit (s : State) (m j : Nat) : Option Bit := if j < 8 * m then dataBit s j else some 0#1

/-- All bits of the `m` codewords are placed, each free cell showing its bit inverted where `flip` says so. -/
structure Carries (flip : Cell → Bit) (v m : Nat) (s : State) : Prop where
  reserved : Reserves v patterns s.rsv
  bound : m < 2 ^ 9
  nac : s.nac = some (BitVec.ofNat 9 m)
  npl : s.npl = some (BitVec.ofNat 12 (8 * m))
  room : 8 * m ≤ (freeOrder (4 * v + 17) s.rsv).length
  shown : ∀ j x, (freeOrder (4 * v + 17) s.rsv)[j]? = some x →
    ∃ b, placedBit s m j = some b ∧ s.val.read (cellIndex (4 * v + 17) x) = some (b ^^^ flip x)

/-- A command that writes `VAL` alone and changes the free cells from `flip` to `flip'`. -/
theorem Carries.of_kept {flip flip' : Cell → Bit} {v m : Nat} {s t : State} (h : Carries flip v m s)
    (hkept : t.nac = s.nac ∧ t.cw = s.cw ∧ t.npl = s.npl ∧ t.rsv = s.rsv)
    (hval : ∀ x ∈ freeOrder (4 * v + 17) s.rsv, ∀ b, s.val.read (cellIndex (4 * v + 17) x) = some (b ^^^ flip x) →
      t.val.read (cellIndex (4 * v + 17) x) = some (b ^^^ flip' x)) : Carries flip' v m t := by
  obtain ⟨hnac, hcw, hnpl, hrsv⟩ := hkept
  refine ⟨hrsv ▸ h.reserved, h.bound, hnac.trans h.nac, hnpl.trans h.npl, hrsv ▸ h.room, fun j x hx => ?_⟩
  rw [hrsv] at hx
  obtain ⟨b, hb, hread⟩ := h.shown j x hx
  refine ⟨b, ?_, hval x (List.mem_of_getElem? hx) b hread⟩
  rw [placedBit, dataBit, hcw]
  exact hb

/-- Every flag of the grid is written. -/
theorem Reserves.holdsBelow {v : Nat} {ps : List Pattern} {m : Memory 1} (h : Reserves v ps m) :
    m.holdsBelow ((4 * v + 17) * (4 * v + 17)) = true := by
  refine (Memory.holdsBelow_iff _ _).mpr fun k hk => ?_
  have hcell := h (k / (4 * v + 17)) (k % (4 * v + 17)) (Nat.div_lt_of_lt_mul hk) (Nat.mod_lt _ (by omega))
  rw [Nat.div_add_mod'] at hcell
  rw [hcell, Option.isSome_some]

/-- A pattern of the symbol has no free cell. -/
theorem Reserves.eq_none_of_free {v : Nat} {m : Memory 1} {x : Cell} {p : Pattern} (h : Reserves v patterns m)
    (hx : x ∈ freeOrder (4 * v + 17) m) (hp : p ∈ patterns) : p v x.1 x.2 = none := by
  obtain ⟨⟨hr, hc⟩, hfree⟩ := mem_freeOrder hx
  refine Option.not_isSome_iff_eq_none.mp fun hsome => ?_
  have hany : (patterns.any fun p => (p v x.1 x.2).isSome) = true := List.any_eq_true.mpr ⟨p, hp, hsome⟩
  rw [cellIndex, h x.1 x.2 hr hc, hany] at hfree
  exact absurd hfree (by decide)

/-- Writing a pattern of the symbol changes no free cell. -/
theorem Carries.of_painted {flip : Cell → Bit} {v m : Nat} {s t : State} {p : Pattern} (h : Carries flip v m s)
    (hkept : t.nac = s.nac ∧ t.cw = s.cw ∧ t.npl = s.npl ∧ t.rsv = s.rsv) (hp : p ∈ patterns)
    (hval : Painted (4 * v + 17) s.val t.val (p v)) : Carries flip v m t := by
  refine h.of_kept hkept fun x hx b hb => ?_
  obtain ⟨⟨hr, hc⟩, _⟩ := mem_freeOrder hx
  rw [cellIndex, hval.1 x.1 x.2 hr hc, h.reserved.eq_none_of_free hx hp, Option.none_or]
  exact hb

/-- `ZPLACE` places all codewords, since the version has room for them. -/
theorem leads_zplace_carries : Leads (InStage 13 fun v s => Drawn patterns (patterns.drop 2) v s ∧ Ready v s)
    (commandResult .zplace) (InStage 14 fun v s => ∃ m, Carries (fun _ => 0#1) v m s) := by
  refine leads_inStage (by decide) (by decide) (by decide) fun s v hstage hsized ⟨⟨hrsv, _⟩, hready⟩ _ => ?_
  obtain ⟨⟨m, hm, hnac, hcw⟩, hblank⟩ := hready
  have hv := version_mem_of_sizedFor hsized
  obtain ⟨_, _, htotal, hparity, _⟩ := versionRow_capacity v hv
  have hroom : 8 * m ≤ (freeOrder (4 * v + 17) s.rsv).length :=
    (Nat.mul_le_mul_left 8 hm).trans (capacity_le_length_freeOrder hv hrsv)
  have hbound : m < 2 ^ 9 := by omega
  obtain ⟨t, e, ht, hplaced, hother⟩ := zplacePlacesBitsInScanOrder s v m (BitVec.eq_of_toNat_eq hstage) hsized hbound
    hnac hcw hrsv.holdsBelow
  have hkept : t.rsv = s.rsv ∧ t.nac = s.nac ∧ t.cw = s.cw := by
    rw [ht]
    exact ⟨rfl, rfl, rfl⟩
  obtain ⟨hrsv', hnac', hcw'⟩ := hkept
  rw [commandResult_eq e]
  refine ⟨m, hrsv' ▸ hrsv, hbound, hnac'.trans hnac, ?_, hrsv' ▸ hroom, fun j x hx => ?_⟩
  · rw [ht, Nat.min_eq_right hroom]
  · rw [hrsv'] at hx
    simp only [BitVec.xor_zero, placedBit, dataBit, hcw']
    by_cases hj : j < 8 * m
    · obtain ⟨b, hb⟩ := Option.isSome_iff_exists.mp (isSome_dataBit hcw hj)
      exact ⟨b, (if_pos hj).trans hb, (hplaced j x hj hx).trans hb⟩
    · refine ⟨0#1, if_neg hj, (hother _ fun i y hi hy hindex => ?_).trans ?_⟩
      · exact hj (freeOrder_place_unique hy hx hindex ▸ hi)
      · exact hblank _ (mem_freeOrder (List.mem_of_getElem? hx)).2

/-! ## The mask and the information cells -/

/-- What mask 0 inverts (R225, R226). -/
def maskBit (x : Cell) : Bit := if (x.1 + x.2) % 2 = 0 then 1#1 else 0#1

theorem mem_allCells_iff (n : Nat) (x : Cell) : x ∈ allCells n ↔ x.1 < n ∧ x.2 < n := by
  refine ⟨mem_allCells, fun ⟨hr, hc⟩ => ?_⟩
  exact List.mem_flatMap.mpr ⟨x.1, List.mem_range.mpr hr, List.mem_map.mpr ⟨x.2, List.mem_range.mpr hc, rfl⟩⟩

/-- What `MASK` writes (R226): the inverted values of the cells that are not reserved and have an even sum. -/
def State.maskPaint (s : State) (r c : Nat) : Option Bit :=
  if s.rsvAt s.sizeN r c = 0#1 ∧ (r + c) % 2 = 0 then some (s.valAt s.sizeN r c ^^^ 1#1) else none

theorem draws_maskedCells (s : State) : Draws s.sizeN s.maskedCells s.maskPaint := by
  refine ⟨inGrid_maskedCells s, fun r c b hr hc => ?_⟩
  simp only [State.maskedCells, List.mem_map, List.mem_filter, mem_allCells_iff, Bool.and_eq_true, beq_iff_eq,
    maskPredicate, Prod.mk.injEq, State.maskPaint, Option.ite_none_right_eq_some, Option.some.injEq]
  constructor
  · rintro ⟨_, ⟨_, hmask⟩, rfl, hb⟩
    exact ⟨hmask, hb⟩
  · rintro ⟨hmask, hb⟩
    exact ⟨(r, c), ⟨⟨hr, hc⟩, hmask⟩, rfl, hb⟩

/-- `MASK`, `WFMT` and `WVER` write `VAL` alone. -/
theorem kept_commandResult {i : Instr} {s : State} (hi : i = .mask ∨ i = .wfmt ∨ i = .wver)
    (hs : (commandResult i s).stage ≠ stageErr) :
    (commandResult i s).nac = s.nac ∧ (commandResult i s).cw = s.cw ∧ (commandResult i s).npl = s.npl ∧
      (commandResult i s).rsv = s.rsv := by
  have hother : i ≠ .clr ∧ i ≠ .encode ∧ i ≠ .pack ∧ i ≠ .cat ∧ i ≠ .zplace ∧
      i ∉ [Instr.encode, .mclr, .pfind, .ptime, .pdark, .palign, .rfmt, .rver] := by
    rcases hi with rfl | rfl | rfl
    all_goals decide
  obtain ⟨hclr, hencode, hpack, hcat, hzplace, hpattern⟩ := hother
  obtain ⟨_, hkeep⟩ := commandsWriteOnlyTheirRegisters i s _ (exec_eq_commandResult i s)
  obtain ⟨_, _, _, _, _, hnac, hcw, _, _, hnpl, _, hrsv⟩ := hkeep hs hclr
  exact ⟨hnac hcat hencode, hcw hpack hcat hencode, hnpl hzplace hencode, hrsv hpattern⟩

theorem leads_mask_carries : Leads (InStage 14 fun v s => ∃ m, Carries (fun _ => 0#1) v m s) (commandResult .mask)
    (InStage 15 fun v s => ∃ m, Carries maskBit v m s) := by
  refine leads_inStage (by decide) (by decide) (by decide) fun s v _ hsized ⟨m, h⟩ hs => ⟨m, ?_⟩
  refine h.of_kept (kept_commandResult (.inl rfl) hs) fun x hx b hb => ?_
  obtain ⟨⟨hr, hc⟩, hfree⟩ := mem_freeOrder hx
  have hsize := sizeN_of_sizedFor hsized
  have hpaint : Painted (4 * v + 17) s.val (stamp (4 * v + 17) s.val s.maskedCells) s.maskPaint := by
    have hdraws := draws_maskedCells s
    rw [hsize] at hdraws
    exact hdraws.painted (sizedFor_le hsized).2 s.val
  obtain ⟨u, hu, e⟩ := State.pipeline_of_ne_err hs
  obtain rfl := Except.ok.inj hu
  change (maskState s).val.read _ = _
  rw [maskState, e]
  change (stamp s.sizeN s.val s.maskedCells).read _ = _
  rw [hsize, cellIndex, hpaint.1 x.1 x.2 hr hc, State.maskPaint, hsize, s.rsvAt_of_read hfree, maskBit]
  rw [BitVec.xor_zero] at hb
  by_cases heven : (x.1 + x.2) % 2 = 0
  · have hvalAt : s.valAt (4 * v + 17) x.1 x.2 = b := by
      rw [State.valAt, ← cellIndex, hb]
      rfl
    rw [if_pos ⟨rfl, heven⟩, if_pos heven, Option.some_or, hvalAt]
  · rw [if_neg fun h => heven h.2, if_neg heven, Option.none_or, BitVec.xor_zero]
    exact hb

theorem leads_wfmt_carries : Leads (InStage 15 fun v s => ∃ m, Carries maskBit v m s) (commandResult .wfmt)
    (InStage 16 fun v s => ∃ m, Carries maskBit v m s) := by
  refine leads_inStage (by decide) (by decide) (by decide) fun s v _ hsized ⟨m, h⟩ hs => ⟨m, ?_⟩
  refine h.of_painted (p := fun v => formatPaint (4 * v + 17)) (kept_commandResult (.inr (.inl rfl)) hs)
    (by simp [patterns]) ?_
  obtain ⟨u, hu, e⟩ := State.pipeline_of_ne_err hs
  obtain rfl := Except.ok.inj hu
  change Painted _ _ (wfmtWith params s).val _
  rw [wfmtWith, e]
  exact painted_wfmt hsized

theorem leads_wver_carries : Leads (InStage 16 fun v s => ∃ m, Carries maskBit v m s) (commandResult .wver)
    (InStage 17 fun v s => ∃ m, Carries maskBit v m s) := by
  refine leads_inStage (by decide) (by decide) (by decide) fun s v _ hsized ⟨m, h⟩ hs => ⟨m, ?_⟩
  refine h.of_painted (p := versionPaint) (kept_commandResult (.inr (.inr rfl)) hs) (by simp [patterns]) ?_
  obtain ⟨u, hu, e⟩ := State.pipeline_of_ne_err hs
  change Painted _ _ (wverWith params s).val _
  rw [wverWith, e]
  unfold wverBody at hu
  rw [verN_of_sizedFor hsized] at hu
  split at hu
  · next h7 =>
    obtain rfl := Except.ok.inj hu
    exact painted_wver hsized h7
  · next h7 =>
    obtain rfl := Except.ok.inj hu
    exact painted_of_none fun r c => if_neg h7

/-! ## The finished symbol -/

/-- What the seventeen commands lead to, an `ENCODE` that ends in stage 17 has reached. -/
theorem Leads.of_encode {Q : State → Prop} {s t : State}
    (h : Leads (fun s => s.stage = 0#5) (fun s => runChain s (Instr.pipeline.map commandResult)) Q)
    (hs : s.stage = 0#5) (e : exec .encode s = .next t) (ht : t.stage = stageDone) : Q t := by
  obtain rfl : runChain s (Instr.pipeline.map commandResult) = t :=
    Host.Outcome.next.inj ((exec_encode_of_stage hs).symm.trans e)
  refine h s hs ?_
  rw [ht]
  decide

/-- Up to `CAT` the codewords are followed, from `MCLR` to `RVER` the blank cells beside the patterns, and from `ZPLACE`
on the placed bits. -/
theorem leads_encode_carries : Leads (fun s => s.stage = 0#5) (fun s => runChain s (Instr.pipeline.map commandResult))
    (InStage 17 fun v s => ∃ m, Carries maskBit v m s) :=
  leads_vsel_declared.chain_cons <| leads_bser_streamed.chain_cons <| leads_pack_packed.chain_cons <|
  leads_rsgen_packed.chain_cons <| leads_prem_packed.chain_cons <| leads_cat_coded.chain_cons <|
  leads_mclr_drawn_ready.chain_cons <| (leads_pfind.and leads_ready).chain_cons <|
  (leads_ptime.and leads_ready).chain_cons <| (leads_pdark.and leads_ready).chain_cons <|
  (leads_palign.and leads_ready).chain_cons <| (leads_rfmt.and leads_ready).chain_cons <|
  (leads_rver.and leads_ready).chain_cons <| leads_zplace_carries.chain_cons <| leads_mask_carries.chain_cons <|
  leads_wfmt_carries.chain_cons <| leads_wver_carries.chain_cons <| Leads.chain_nil _

/-- Settles O47: masking inverts a placed bit and a cell that stayed blank alike. -/
theorem finishedSymbolCarriesEveryCodeword : Obligations.FinishedSymbolCarriesEveryCodeword := by
  unfold Obligations.FinishedSymbolCarriesEveryCodeword
  intro s t hs e ht
  obtain ⟨_, v, hsized, m, h⟩ := leads_encode_carries.of_encode hs e ht
  refine ⟨v, m, hsized, h.nac, h.bound, h.npl, h.room, fun j x hx => ?_⟩
  obtain ⟨b, hb, hread⟩ := h.shown j x hx
  rw [← placedBit, hb, Option.map_some]
  exact hread

end Sys2Proof.Machine
end

section
/-! PROOFS. `MASK`, `WFMT`, `WVER` (R225 to R233): each writes its cells of `VAL` and nothing else. -/

namespace Sys2Proof.Machine

open Sys2Proof.Config Sys2Proof.Claims

/-- Only what is painted inside the grid counts. -/
theorem painted_congr {n : Nat} {m m' : Memory 1} {f g : Nat → Nat → Option Bit} (h : Painted n m m' f)
    (hfg : ∀ r c, r < n → c < n → f r c = g r c) : Painted n m m' g :=
  ⟨fun r c hr hc => hfg r c hr hc ▸ h.1 r c hr hc, h.2⟩

/-- A command that only writes `VAL` completes. -/
theorem pipeline_setVal {s : State} {n : Nat} {k : BitVec 5} {body : State → Except Fault State} {val : Memory 1}
    {f : Nat → Nat → Option Bit} (hs : s.stage = k) (hbody : body s = .ok (s.setVal val))
    (hpaint : Painted n s.val val f) (hk : k ≠ stageErr := by decide) :
    ∃ t, Host.Outcome.next (φ := Fault) (ρ := Refusal) (s.pipeline k body) = .next t ∧
      t = { s with stage := k + 1#5, val := t.val } ∧ Painted n s.val t.val f := by
  rw [s.pipeline_ok k body _ hk hs hbody]
  exact ⟨_, rfl, rfl, hpaint⟩

/-- Where both grids hold a value, `MASK` inverts without a draw. -/
theorem maskPaint_of_written {s : State} {r c : Nat} (hrsv : (s.rsv.read (r * s.sizeN + c)).isSome = true)
    (hval : (s.val.read (r * s.sizeN + c)).isSome = true) :
    s.maskPaint r c =
      if s.rsv.read (r * s.sizeN + c) = some 0#1 ∧ (r + c) % 2 = 0 then
        (s.val.read (r * s.sizeN + c)).map (fun b => b ^^^ 1#1)
      else none := by
  obtain ⟨_, hflag⟩ := Option.isSome_iff_exists.mp hrsv
  obtain ⟨bit, hbit⟩ := Option.isSome_iff_exists.mp hval
  have hvalAt : s.valAt s.sizeN r c = bit := by
    rw [State.valAt, hbit]
    rfl
  rw [State.maskPaint, s.rsvAt_of_read hflag, hvalAt, hflag, hbit, Option.map_some]
  simp only [Option.some.injEq]

/-- Settles O40: the new values are taken from the grids as they stood, and no cell of them reads as a draw. -/
theorem maskInvertsFreeEvenCells : Obligations.MaskInvertsFreeEvenCells := by
  unfold Obligations.MaskInvertsFreeEvenCells
  intro s v hs hsized hrsv hval
  obtain ⟨_, hdepth⟩ := sizedFor_le hsized
  rw [← sizeN_of_sizedFor hsized] at hrsv hval hdepth ⊢
  refine pipeline_setVal (body := maskBody) hs rfl ?_
  refine painted_congr ((draws_maskedCells s).painted hdepth s.val) fun r c hr hc => ?_
  have hcell : r * s.sizeN + c < s.sizeN * s.sizeN := cellIndex_lt (x := (r, c)) hr hc
  exact maskPaint_of_written ((Memory.holdsBelow_iff _ _).mp hrsv _ hcell) ((Memory.holdsBelow_iff _ _).mp hval _ hcell)

/-- Settles O41: the literal is `INFO[0]`, and position `k` of both runs takes its bit `k`. -/
theorem wfmtWritesFormatLiteral : Obligations.WfmtWritesFormatLiteral := fun _ _ hs hsized =>
  pipeline_setVal (body := wfmtBody params) hs rfl (painted_wfmt hsized)

/-- Settles O42: below version 7 the body leaves the state as it is, as the paint leaves the grid. -/
theorem wverWritesVersionLiteral : Obligations.WverWritesVersionLiteral := by
  unfold Obligations.WverWritesVersionLiteral
  intro s v hs hsized
  have hver := verN_of_sizedFor hsized
  by_cases h7 : 7 ≤ v
  · refine pipeline_setVal hs ?_ (painted_wver hsized h7)
    rw [wverBody, hver, if_pos h7]
  · have hbody : wverBody params s = .ok (s.setVal s.val) := by
      rw [wverBody, hver, if_neg h7]
      rfl
    exact pipeline_setVal hs hbody (painted_of_none fun r c => if_neg h7)

end Sys2Proof.Machine
end

section
/-! PROOFS. One step (R70, R92, R272, R282): the transaction that it performs, the command that a word written to `CMD`
runs, and that every transaction answers a next state. -/

namespace Sys2Proof.Machine

open Sys2Proof.Config

/-! ## What a step performs -/

/-- A write of a word to `CMD` issues it (R90). -/
theorem perform_write_cmd {s : State} {w : Nat} (hw : w < 2 ^ 32) :
    perform (.write 0 0 w) s = issue (BitVec.ofNat 32 w) (s.respond none) :=
  memWrite_cmd w (s.respond none) hw

/-- Settles O5. -/
theorem stepPerformsNextTransaction : Obligations.StepPerformsNextTransaction :=
  ⟨step_of_host, step_idle⟩

/-- Settles O4: the step performs the write, the write issues the word, and the word runs its command. -/
theorem stepRunsDecodedCommand : Obligations.StepRunsDecodedCommand := by
  unfold Obligations.StepRunsDecodedCommand
  intro s w rest i hhost hw hs hd
  calc step s = perform (.write 0 0 w) (s.takeOp rest) := step_of_host s _ rest hhost
    _ = issue (BitVec.ofNat 32 w) ((s.takeOp rest).respond none) := perform_write_cmd hw
    _ = exec i ((s.takeOp rest).respond none) := issue_of_decode _ _ i hs hd

/-! ## Every step answers a next state -/

theorem issue_is_next (w : Word) (s : State) : ∃ t, issue w s = .next t := by
  rcases issue_cases w s with ⟨_, _, e⟩ | ⟨_, _, e⟩ | ⟨_, i, _, e⟩ | ⟨_, _, _, e⟩
  · exact ⟨_, e⟩
  · exact e ▸ exec_is_next .clr s
  · exact e ▸ exec_is_next i s
  · exact ⟨_, e⟩

theorem perform_is_next (op : HostOp) (s : State) : ∃ t, perform op s = .next t := by
  cases op with
  | reset => exact ⟨_, rfl⟩
  | read space idx => exact ⟨_, rfl⟩
  | write space idx v =>
    change ∃ t, memWrite space idx v (s.respond none) = .next t
    rcases memWrite_cases space idx v (s.respond none) with e | ⟨w, e⟩ | ⟨_, ⟨_, e⟩ | ⟨_, _, e⟩⟩
    · exact ⟨_, e⟩
    · exact e ▸ issue_is_next w (s.respond none)
    · exact ⟨_, e⟩
    · exact ⟨_, e⟩

/-- Settles O6: with a transaction pending it answers, and with none the state stays. -/
theorem everyStepAnswersNextState : Obligations.EveryStepAnswersNextState := by
  unfold Obligations.EveryStepAnswersNextState
  intro s
  cases hhost : s.host with
  | nil => exact ⟨s, step_idle s hhost⟩
  | cons op rest => exact step_of_host s op rest hhost ▸ perform_is_next op (s.takeOp rest)

end Sys2Proof.Machine
end

section
/-! PROOFS. Stage `ERR` (R115, R247): the word of `CLR` acts, and no other word, write or read. -/

namespace Sys2Proof.Machine

open Sys2Proof.Config Sys2Proof.Claims

/-! ## Words -/

theorem issue_clrWord_of_err {s : State} (hs : s.stage = stageErr) : issue clrWord s = .next s.cleared := by
  rw [issue, if_pos hs, if_pos rfl, exec_clr (.inr hs)]

theorem issue_of_err {s : State} {w : Word} (hs : s.stage = stageErr) (hw : w ≠ clrWord) : issue w s = .next s := by
  rw [issue, if_pos hs, if_neg hw]

/-! ## Writes -/

/-- In stage `ERR` no write is legal but that of a word to `CMD` (R63 (d), (e)), and an illegal one latches no new
code. -/
theorem perform_write_data_of_err {s : State} {space idx v : Nat} (hs : s.stage = stageErr)
    (hcmd : ¬ (space = 0 ∧ idx = 0)) : perform (.write space idx v) s = .next (s.respond none) := by
  have hzero : s.stage ≠ 0#5 := hs ▸ by decide
  have hbad : s.illegalWrite space idx v = true := by
    rw [← Bool.not_eq_false, illegalWrite_eq_false_iff]
    rintro (⟨h, h', _⟩ | ⟨_, _, h, _⟩ | ⟨_, _, h, _⟩)
    · exact hcmd ⟨h, h'⟩
    · exact hzero h
    · exact hzero h
  rw [perform_write_illegal hbad, s.raise_of_eq .acc hs]

/-! ## Reads -/

theorem State.status_of_err {s : State} (hs : s.stage = stageErr) :
    s.status = 0x0000101F#32 ||| (s.errc.setWidth 32 <<< 8) := by
  have hdone : s.done = false := by rw [State.done, hs]; rfl
  have herr : s.err = true := by rw [State.err, hs]; rfl
  calc
    s.status = 31#32 ||| s.errc.setWidth 32 <<< 8 ||| 0#32 ||| 0x1000#32 := by
      rw [State.status, hdone, herr, hs]
      rfl
    _ = 31#32 ||| 0x1000#32 ||| s.errc.setWidth 32 <<< 8 := by
      rw [BitVec.or_zero, BitVec.or_assoc, BitVec.or_comm (s.errc.setWidth 32 <<< 8), BitVec.or_assoc]

/-- The ROM elements with a content are among those of R30 and R42. -/
theorem romIndex_of_content {s : State} {space idx x : Nat} (hrom : 8 ≤ space) (h : content s space idx = some x) :
    space < 13 ∧ idx < depths.getD space 0 ∧ ¬ (space = 12 ∧ 1 ≤ idx ∧ idx ≤ 6) := by
  by_cases hspace : space < 13
  · refine ⟨hspace, ?_⟩
    have hspaces : space = 8 ∨ space = 9 ∨ space = 10 ∨ space = 11 ∨ space = 12 := by omega
    rcases hspaces with rfl | rfl | rfl | rfl | rfl
    · obtain ⟨v, hv, _⟩ := Option.map_eq_some_iff.mp h
      obtain ⟨hexp, _⟩ := Option.ite_none_right_eq_some.mp hv
      exact ⟨Nat.lt_succ_of_le hexp, by omega⟩
    · obtain ⟨v, hv, _⟩ := Option.map_eq_some_iff.mp h
      obtain ⟨⟨_, hlog⟩, _⟩ := Option.ite_none_right_eq_some.mp hv
      exact ⟨Nat.lt_succ_of_le hlog, by omega⟩
    · obtain ⟨⟨_, hrow⟩, _⟩ := bounds_of_vtabContent h
      have hvtab : idx < 40 := by omega
      exact ⟨hvtab, by omega⟩
    · obtain ⟨⟨_, hrow⟩, _⟩ := bounds_of_atabContent h
      have hatab : idx < 40 := by omega
      exact ⟨hatab, by omega⟩
    · have hi := bounds_of_infoContent h
      have hinfo : idx < 11 := by omega
      exact ⟨hinfo, by omega⟩
  · obtain ⟨n, rfl⟩ := Nat.exists_eq_add_of_le' (not_lt.mp hspace)
    exact nomatch h

theorem legalRead_of_romContent {s : State} {space idx x : Nat} (hrom : 8 ≤ space) (h : content s space idx = some x) :
    ¬ IllegalRead space idx := by
  obtain ⟨hspace, hidx, hinfo⟩ := romIndex_of_content hrom h
  rintro ((hno | hno | hno) | ⟨hreg, _⟩)
  · omega
  · omega
  · exact hinfo hno
  · omega

/-- In stage `ERR` a read changes nothing, and what it returns of a ROM element is its content. -/
theorem perform_read_of_err {s : State} (hs : s.stage = stageErr) (space idx : Nat) :
    ∃ d, perform (.read space idx) s = .next { s with resp := some d } ∧
      (8 ≤ space → ∀ x, content s space idx = some x → d.toNat = x) := by
  obtain ⟨hread, _⟩ := legalReadReturnsContent
  obtain ⟨hillegal, _⟩ := illegalAccessRaisesAcc
  by_cases hbad : IllegalRead space idx
  · obtain ⟨d, hd⟩ := hillegal s space idx hbad
    rw [if_pos hs] at hd
    exact ⟨d, hd, fun hrom _ hx => absurd hbad (legalRead_of_romContent hrom hx)⟩
  · obtain ⟨d, hd, _, hcontent⟩ := hread s space idx hbad
    exact ⟨d, hd, fun _ => hcontent⟩

/-- Settles O50: commands, then the word of `CLR` and any other, issued and written to `CMD`; writes elsewhere; reads,
of which that of `STATUS` returns the view. -/
theorem errStageHoldsUntilClr : Obligations.ErrStageHoldsUntilClr := by
  unfold Obligations.ErrStageHoldsUntilClr
  intro s hs
  refine ⟨fun i hi => ?_, issue_clrWord_of_err hs, fun w hw => issue_of_err hs hw, ⟨none, ?_⟩,
    fun w hlt hw => ⟨none, ?_⟩, fun space idx v hcmd => ⟨none, perform_write_data_of_err hs hcmd⟩, fun space idx => ?_⟩
  · rw [exec_eq_commandResult, commandResult_of_err hi hs]
  · rw [perform_write_cmd (by decide)]
    exact issue_clrWord_of_err (s := s.respond none) hs
  · have hword : BitVec.ofNat 32 w ≠ clrWord := fun h => hw (by
      rw [← toNat_ofNat_of_lt hlt, h]
      rfl)
    rw [perform_write_cmd hlt]
    exact issue_of_err (s := s.respond none) hs hword
  · by_cases hstatus : space = 0 ∧ idx = 1
    · obtain ⟨rfl, rfl⟩ := hstatus
      exact ⟨s.status, rfl, fun _ => State.status_of_err hs, fun hrom => absurd hrom (by decide)⟩
    · obtain ⟨d, hd, hcontent⟩ := perform_read_of_err hs space idx
      exact ⟨d, hd, fun h => absurd h hstatus, hcontent⟩

end Sys2Proof.Machine
end

section
/-! PROOFS. A command that faults (R110, R245, R249): it leaves the fault entry of the state that it started from, with
a fault that a command can raise, also where the fault ends the chain of `ENCODE`. -/

namespace Sys2Proof.Machine

open Sys2Proof.Config Sys2Proof.Claims

/-- The faults of R241 that commands raise: not the reserved one (R243), nor that of host accesses (R63). -/
def commandFaults : List Fault := [.ovf, .seq, .ill, .uninit]

/-- `t` is the fault entry of `s` for a fault of a command. -/
def FaultedFrom (s t : State) : Prop := ∃ f ∈ commandFaults, t = s.faulted f

/-! ## Faults of the bodies -/

theorem mem_commandFaults_of_genpBody {a : Byte} {s : State} {f : Fault} (h : genpBody a s = .error f) :
    f ∈ commandFaults := by
  unfold genpBody at h
  split at h
  · exact nomatch h
  · exact Except.error.inj h ▸ by decide

theorem mem_commandFaults_of_pmullBody {a : Byte} {s : State} {f : Fault} (h : pmullBody a s = .error f) :
    f ∈ commandFaults := by
  unfold pmullBody at h
  split at h
  · exact Except.error.inj h ▸ by decide
  · split at h
    · exact Except.error.inj h ▸ by decide
    · exact nomatch h

theorem mem_commandFaults_of_vselBody {p : Params} {s : State} {f : Fault} (h : vselBody p s = .error f) :
    f ∈ commandFaults := by
  unfold vselBody at h
  split at h
  · exact Except.error.inj h ▸ by decide
  · exact nomatch h

theorem mem_commandFaults_of_bserBody {s : State} {f : Fault} (h : bserBody s = .error f) : f ∈ commandFaults := by
  unfold bserBody at h
  split at h
  · exact Except.error.inj h ▸ by decide
  · exact nomatch h

/-- The fault of an advancing body is the body's own. -/
theorem advancing_eq_error {k : Nat} {body : State → Except Fault State} {s : State} {f : Fault}
    (h : advancing k body s = .error f) : body s = .error f := by
  unfold advancing at h
  cases hb : body s with
  | ok t => exact nomatch hb ▸ h
  | error g => exact congrArg Except.error (Except.error.inj (hb ▸ h))

theorem mem_commandFaults_of_commandBody {i : Instr} {s : State} {f : Fault} (hfault : canFault i = true)
    (h : commandBody i s = .error f) : f ∈ commandFaults := by
  cases i
  case encode => exact nomatch h
  case genp a => exact mem_commandFaults_of_genpBody h
  case pmull a => exact mem_commandFaults_of_pmullBody h
  case vsel => exact mem_commandFaults_of_vselBody (advancing_eq_error h)
  case bser => exact mem_commandFaults_of_bserBody (advancing_eq_error h)
  all_goals exact nomatch hfault

/-! ## Faults of the commands -/

/-- R112's table leads to no stage after `DONE`. -/
theorem stageAfter_le {i : Instr} {k : Nat} (h : k ∈ acceptedStages i) : stageAfter i k ≤ 17 := by
  cases i
  case nop | gfmul | gfadd | genp | pmull => exact accepted_le h
  case clr => exact Nat.zero_le 17
  all_goals exact List.mem_singleton.mp h ▸ by decide

/-- An accepted command that ends in stage `ERR` has a body that raised the fault; one that is not accepted raises
`SEQ`. -/
theorem faultedFrom_of_ne_encode {i : Instr} {s : State} (hi : i ≠ .encode) (hs : s.stage ≠ stageErr)
    (ht : (commandResult i s).stage = stageErr) : FaultedFrom s (commandResult i s) := by
  by_cases ha : s.stage.toNat ∈ acceptedStages i
  · have hacc : accepts i s.stage = true := decide_eq_true ha
    rw [commandResult_eq_command (.inr hs)] at ht ⊢
    rcases endsIn_commandBody hi ha with ⟨u, hu, hstage⟩ | ⟨⟨f, hf⟩, hfault⟩
    · have hrunning : u.stage.toNat ≤ 17 := hstage ▸ stageAfter_le ha
      rw [State.command_ok _ _ s u hs hacc hu] at ht
      exact absurd ht (State.running_ne_err hrunning)
    · exact ⟨f, mem_commandFaults_of_commandBody hfault hf, State.command_error _ _ s f hs hacc hf⟩
  · exact ⟨.seq, by decide, commandResult_of_not_accepted hs ha⟩

/-- The fault entry keeps the model's own fields and nothing else (R245). -/
theorem SameOwn.faulted_eq {s t : State} (h : SameOwn s t) (f : Fault) : t.faulted f = s.faulted f := by
  obtain ⟨hhost, hresp, hdraws⟩ := h
  simp only [State.faulted, hhost, hresp, hdraws]

/-- What a chain of commands from `s` has left so far: the model's own fields kept, and in stage `ERR` the fault entry
of `s` itself. -/
def KeepsOwnOrFaults (s t : State) : Prop := SameOwn s t ∧ (t.stage = stageErr → FaultedFrom s t)

theorem KeepsOwnOrFaults.commandResult {s t : State} (h : KeepsOwnOrFaults s t) {i : Instr} (hi : i ≠ .encode)
    (ht : t.stage ≠ stageErr) : KeepsOwnOrFaults s (commandResult i t) := by
  obtain ⟨hown, _⟩ := h
  obtain ⟨hown', _⟩ := framed_of_ne_encode t i hi
  refine ⟨hown.trans hown', fun herr => ?_⟩
  obtain ⟨f, hf, e⟩ := faultedFrom_of_ne_encode hi ht herr
  exact ⟨f, hf, e.trans (hown.faulted_eq f)⟩

/-- A fault inside `ENCODE` leaves the fault entry of the state it started from, whatever was written before. -/
theorem keepsOwnOrFaults_runChain {s : State} (hs : s.stage ≠ stageErr) :
    KeepsOwnOrFaults s (runChain s (pipelineStates params)) := by
  refine runChain_keeps (P := KeepsOwnOrFaults s) (fun g hg t ht h => ?_) ⟨⟨rfl, rfl, rfl⟩, fun h => absurd h hs⟩
  obtain ⟨i, _, hi, rfl⟩ := mem_pipelineStates hg
  exact h.commandResult hi ht

theorem faultedFrom_of_exec {i : Instr} {s t : State} (e : exec i s = .next t) (hs : s.stage ≠ stageErr)
    (ht : t.stage = stageErr) : FaultedFrom s t := by
  by_cases hi : i = .encode
  · subst hi
    rw [exec_encode_eq_runChain] at e
    obtain rfl := Host.Outcome.next.inj e
    obtain ⟨_, hfaulted⟩ := keepsOwnOrFaults_runChain hs
    exact hfaulted ht
  · rw [exec_eq_commandResult] at e
    obtain rfl := Host.Outcome.next.inj e
    exact faultedFrom_of_ne_encode hi hs ht

theorem code_of_mem_commandFaults : ∀ f ∈ commandFaults, f.code = 1#3 ∨ f.code = 3#3 ∨ f.code = 4#3 ∨ f.code = 6#3 := by
  decide

/-- Settles O51: the fault entry of the model is the statement's, and the four faults have the four codes. -/
theorem faultingCommandWritesNothingElse : Obligations.FaultingCommandWritesNothingElse := by
  unfold Obligations.FaultingCommandWritesNothingElse
  intro i s t e hs ht
  obtain ⟨f, hf, rfl⟩ := faultedFrom_of_exec e hs ht
  exact ⟨rfl, code_of_mem_commandFaults f hf⟩

end Sys2Proof.Machine
end
